-- ==== Sys2Proof/Word.lean ====
section
/-! DEFINITION. The words of the module's registers, records and wires.

Byte order is little-endian everywhere (R11); the functions that lay bytes out stand in
`Sys2Proof/Machine/Bytes.lean`. -/
namespace Sys2Proof

/-- One byte of a register, record or file. -/
abbrev Byte := BitVec 8
/-- A 32-bit word: an FP32 or INT32 pattern, a counter, a tag. -/
abbrev Word := BitVec 32
/-- A byte string, lowest address first. -/
abbrev Bytes := List Byte

end Sys2Proof
end

