-- ==== Sys2Proof/Machine/Bytes.lean ====
section
/-! DEFINITION. Bytes: little-endian fields (R11), the check codes of R285, R359 and R444, and SHA-256. -/
namespace Sys2Proof.Machine

/-- The `n` bytes of `v`, least significant first (R11). -/
def leBytes : Nat → Nat → Bytes
  | 0, _ => []
  | n + 1, v => BitVec.ofNat 8 v :: leBytes n (v / 256)

/-- The number whose bytes, least significant first, are `bs` (R11). -/
def leNat : Bytes → Nat
  | [] => 0
  | b :: bs => b.toNat + 256 * leNat bs

/-- The number whose bytes, most significant first, are `bs`. -/
def beNat (bs : Bytes) : Nat :=
  bs.foldl (fun a b => 256 * a + b.toNat) 0

/-- Bytes `off` to `off + n − 1` of `bs`; bytes beyond the end read as 0. -/
def slice (bs : Bytes) (off n : Nat) : Bytes :=
  let part := (bs.drop off).take n
  part ++ List.replicate (n - part.length) 0

/-- The little-endian field of `n` bytes at `off`. -/
def field (bs : Bytes) (off n : Nat) : Nat :=
  leNat ((bs.drop off).take n)

/-- Bit `i` of a number. -/
def natBit (v i : Nat) : Bool :=
  v / 2 ^ i % 2 == 1

/-- Bits `hi` down to `lo` of a number. -/
def natBits (v hi lo : Nat) : Nat :=
  v / 2 ^ lo % 2 ^ (hi - lo + 1)

/-- Ceiling of `a / b`. -/
def ceilDiv (a b : Nat) : Nat :=
  (a + b - 1) / b

/-- `a` rounded up to a multiple of `b`. -/
def roundUp (a b : Nat) : Nat :=
  ceilDiv a b * b

/-- The value as a signed number of `w` bits. -/
def signed (w v : Nat) : Int :=
  if v % 2 ^ w < 2 ^ (w - 1) then (v % 2 ^ w : Nat) else ((v % 2 ^ w : Nat) : Int) - 2 ^ w

/-- A signed number as `w` bits, two's complement. -/
def unsigned (w : Nat) (v : Int) : Nat :=
  (v % (2 ^ w : Int)).toNat

/-- An 8-, 16- or 32-bit counter that stops at its largest value. -/
def satAdd {w : Nat} (a : BitVec w) (n : Nat) : BitVec w :=
  if a.toNat + n < 2 ^ w then BitVec.ofNat w (a.toNat + n) else BitVec.allOnes w

/-- One more, saturating. -/
def satInc {w : Nat} (a : BitVec w) : BitVec w :=
  satAdd a 1

/-- Split `bs` into pieces of `n` bytes; `fuel` bounds their number. -/
def chunks {α : Type} (n : Nat) : Nat → List α → List (List α)
  | 0, _ => []
  | _, [] => []
  | fuel + 1, bs => bs.take n :: chunks n fuel (bs.drop n)

/-- Set entry `i` of a list, where it has one. -/
def setAt {α : Type} : Nat → α → List α → List α
  | _, _, [] => []
  | 0, v, _ :: t => v :: t
  | i + 1, v, h :: t => h :: setAt i v t

/-! ## Check codes -/

/-- One bit of a CRC-16/CCITT step: polynomial 0x1021, most significant bit first (R444). -/
def crc16Bit (c : BitVec 16) : BitVec 16 :=
  if c.msb then (c <<< 1) ^^^ 0x1021 else c <<< 1

/-- One byte of CRC-16/CCITT. -/
def crc16Byte (c : BitVec 16) (b : Byte) : BitVec 16 :=
  let c := c ^^^ (b.zeroExtend 16 <<< 8)
  (List.range 8).foldl (fun c _ => crc16Bit c) c

/-- CRC-16/CCITT with initial value 0xFFFF (R444). -/
def crc16 (bs : Bytes) : BitVec 16 :=
  bs.foldl crc16Byte 0xFFFF

/-- One byte of a reflected 32-bit CRC with polynomial `poly` in reflected form. -/
def crc32Byte (poly : Word) (c : Word) (b : Byte) : Word :=
  (List.range 8).foldl (fun c _ => if c.getLsbD 0 then (c >>> 1) ^^^ poly else c >>> 1) (c ^^^ b.zeroExtend 32)

/-- CRC-32C: the Castagnoli polynomial, reflected, initial value and final XOR of all ones (log entry 22). -/
def crc32c (bs : Bytes) : Word :=
  ~~~ (bs.foldl (crc32Byte 0x82F63B78) 0xFFFFFFFF)

/-- CRC-32: the IEEE 802.3 polynomial, reflected, initial value and final XOR of all ones (log entry 22). -/
def crc32 (bs : Bytes) : Word :=
  ~~~ (bs.foldl (crc32Byte 0xEDB88320) 0xFFFFFFFF)

/-! ## SHA-256 (FIPS 180-4) -/

/-- The eight 32-bit words of a 256-bit number, most significant first. -/
def wordsOf (n : Nat) : List Word := (List.range 8).map fun i => BitVec.ofNat 32 (n >>> (224 - 32 * i))

/-- Round constants, eight in each number: the first 32 bits of the fractional parts of the cube roots of the first 64 primes. -/
def shaRows : List Nat :=
  [0x428a2f9871374491b5c0fbcfe9b5dba53956c25b59f111f1923f82a4ab1c5ed5,
   0xd807aa9812835b01243185be550c7dc372be5d7480deb1fe9bdc06a7c19bf174,
   0xe49b69c1efbe47860fc19dc6240ca1cc2de92c6f4a7484aa5cb0a9dc76f988da,
   0x983e5152a831c66db00327c8bf597fc7c6e00bf3d5a7914706ca635114292967,
   0x27b70a852e1b21384d2c6dfc53380d13650a7354766a0abb81c2c92e92722c85,
   0xa2bfe8a1a81a664bc24b8b70c76c51a3d192e819d6990624f40e3585106aa070,
   0x19a4c1161e376c082748774c34b0bcb5391c0cb34ed8aa4a5b9cca4f682e6ff3,
   0x748f82ee78a5636f84c878148cc7020890befffaa4506cebbef9a3f7c67178f2]

/-- The hash before the first block: the first 32 bits of the fractional parts of the square roots of the first 8 primes. -/
def shaStart : Nat := 0x6a09e667bb67ae853c6ef372a54ff53a510e527f9b05688c1f83d9ab5be0cd19

/-- The xor of three rotations. -/
def rotations (x : Word) (i j k : Nat) : Word := x.rotateRight i ^^^ x.rotateRight j ^^^ x.rotateRight k

/-- The next schedule word of the last 16, newest first. -/
def scheduleWord (last : List Word) : Word :=
  let near := last.getD 1 0
  let far := last.getD 14 0
  (rotations near 17 19 0 ^^^ near ^^^ (near >>> 10)) + last.getD 6 0 + (rotations far 7 18 0 ^^^ far ^^^ (far >>> 3)) + last.getD 15 0

/-- One round: the last four words of the two chains, newest first, each gains one (`q` the schedule word, `k` the round's constant). -/
def chainStep (k q : Word) (x y : List Word) : List Word × List Word :=
  let at_ := fun (l : List Word) i => l.getD i 0
  let t := at_ y 3 + rotations (at_ y 0) 6 11 25 + (at_ y 2 ^^^ (at_ y 0 &&& (at_ y 1 ^^^ at_ y 2))) + k + q
  let m := (at_ x 0 &&& at_ x 1) ||| (at_ x 2 &&& (at_ x 0 ||| at_ x 1))
  ((t + rotations (at_ x 0) 2 13 22 + m) :: x.take 3, (at_ x 3 + t) :: y.take 3)

/-- All rounds: `q` holds the last 16 schedule words, newest first; the oldest is used next. -/
def chainRounds : List Word → List Word → List Word → List Word → List Word × List Word
  | [], _, x, y => (x, y)
  | k :: ks, q, x, y =>
    let r := chainStep k (q.getD 15 0) x y
    chainRounds ks (scheduleWord q :: q.take 15) r.1 r.2

/-- A 64-byte block: the hash so far plus what the rounds make of it. -/
def digestBlock (hash : List Word) (block : Bytes) : List Word :=
  let q := ((chunks 4 16 block).map fun b => BitVec.ofNat 32 (beNat b)).reverse
  let r := chainRounds (shaRows.flatMap wordsOf) q (hash.take 4) (hash.drop 4)
  hash.zipWith (· + ·) (r.1 ++ r.2)

/-- The even-parity bit that accompanies a word (R358): set where the word holds an odd number of ones. -/
def parityBit (w : Word) : Bool := ((List.range 32).filter fun i => w.getLsbD i).length % 2 == 1

/-- The SHA-256 digest, 32 bytes: the message, a one bit, zeros, and the count of bits in the last 8 bytes of whole blocks. -/
def sha256 (bs : Bytes) : Bytes :=
  let tail := 0x80 :: (leBytes (8 + (119 - bs.length % 64) % 64) (8 * bs.length)).reverse
  ((chunks 64 (bs.length / 64 + 2) (bs ++ tail)).foldl digestBlock (wordsOf shaStart)).flatMap fun w => (leBytes 4 w.toNat).reverse

end Sys2Proof.Machine
end

