-- ==== Sys2Proof/Machine/Events.lean ====
section
/-! DEFINITION. The events the module logs, with their classes and codes: the event tables of the chapters (R353 and
each chapter's last section). -/
namespace Sys2Proof.Machine

/-- The events of the module, in the order of their codes. -/
inductive Event where
  | controlMismatch
  | coolantOutlet
  | mailboxRingError
  | cofinDown
  | cofinUp
  | cofinGen2
  | hostDmaError
  | stateChange
  | startStepFail
  | startDone
  | startStepSlow
  | fwAuthFail
  | configRefused
  | coreExcluded
  | licenceRefused
  | licenceInstalled
  | inputOvervoltage
  | mgmtConfig
  | meridianHoldover
  | meridianUnlock
  | meridianConflict
  | meridianStep
  | frameOverrun
  | frameAbort
  | stepRetriesExhausted
  | slotLate
  | contourSplit
  | tokenOverflow
  | tokenImbalance
  | tileRange
  | icacheParity
  | macroOpFault
  | arrayCheck
  | arrayParity
  | arraySaturate
  | formatSaturate
  | scaleClamp
  | overflowSkip
  | lossScaleFloor
  | formatReplay
  | updateIndex
  | hbmCorrected
  | hbmUncorrectable
  | hubcCorrected
  | hubcUncorrectable
  | hbmRetrainFail
  | hbmRetrainOverdue
  | hbmRepairStart
  | hbmRepairDone
  | hbmRepairLost
  | hbmNoSpare
  | hbmWarm
  | hbmHot
  | hbmCritical
  | linkDown
  | linkNarrow
  | linkRetrain
  | linkRetryExhausted
  | laneBer
  | linkTooLong
  | portNarrow
  | portDown
  | gatewayModule
  | gatewayLinkDown
  | gatewayTunnelFail
  | slotTrailerBad
  | headerCrc
  | msgTableFull
  | rankUnmapped
  | pathLost
  | peerLost
  | packetSunk
  | legendBad
  | surveyMismatch
  | surveyLevel
  | surveyReorient
  | surveyCoordConflict
  | surveyFwDiffers
  | surveyTimeout
  | reshapeStart
  | reshapeDone
  | reshapeBlocked
  | jobSuspended
  | sealAbort
  | sealMissed
  | sealRollback
  | buddyLag
  | buddyResend
  | sheetRestored
  | sheetLost
  | powerOverCap
  | powerCapUnmet
  | alertFloor
  | dieWarm
  | dieHot
  | thermalTrip
  | fallbackStart
  | fallbackEnd
  | pathParity
  | payloadCrc
  | updateMismatch
  | reduceMismatch
  | twinMismatch
  | fieldTestFail
  | fieldTestLate
  | suspectSteps
  | faultLasting
  | coreRetired
  | reset
  | hangRecovery
  | commandTimeout
  | dumpDone
  | dumpSkipped
  | eventsCoalesced
  | controlWatchdog
  deriving DecidableEq, Repr

/-- The class and the code of an event (R54, R84, R105, R130, R188, R214, R238, R266, R311, R352, R353, R381, R413, R443). FAULT_LASTING and EVENTS_COALESCED take the class of their key. -/
def Event.info : Event → Nat × Nat
  | .controlMismatch => (4, 0x101)
  | .coolantOutlet => (8, 0x102)
  | .mailboxRingError => (1, 0x110)
  | .cofinDown => (6, 0x111)
  | .cofinUp => (2, 0x112)
  | .cofinGen2 => (2, 0x113)
  | .hostDmaError => (4, 0x114)
  | .stateChange => (2, 0x115)
  | .startStepFail => (2, 0x120)
  | .startDone => (2, 0x121)
  | .startStepSlow => (7, 0x122)
  | .fwAuthFail => (5, 0x123)
  | .configRefused => (1, 0x124)
  | .coreExcluded => (4, 0x125)
  | .licenceRefused => (5, 0x126)
  | .licenceInstalled => (5, 0x127)
  | .inputOvervoltage => (8, 0x130)
  | .mgmtConfig => (2, 0x131)
  | .meridianHoldover => (6, 0x201)
  | .meridianUnlock => (6, 0x202)
  | .meridianConflict => (6, 0x203)
  | .meridianStep => (6, 0x204)
  | .frameOverrun => (7, 0x210)
  | .frameAbort => (7, 0x211)
  | .stepRetriesExhausted => (7, 0x212)
  | .slotLate => (6, 0x220)
  | .contourSplit => (6, 0x230)
  | .tokenOverflow => (4, 0x301)
  | .tokenImbalance => (4, 0x302)
  | .tileRange => (1, 0x303)
  | .icacheParity => (4, 0x304)
  | .macroOpFault => (4, 0x305)
  | .arrayCheck => (4, 0x401)
  | .arrayParity => (4, 0x402)
  | .arraySaturate => (1, 0x403)
  | .formatSaturate => (1, 0x501)
  | .scaleClamp => (1, 0x502)
  | .overflowSkip => (1, 0x701)
  | .lossScaleFloor => (1, 0x702)
  | .formatReplay => (1, 0x703)
  | .updateIndex => (1, 0x704)
  | .hbmCorrected => (4, 0x801)
  | .hbmUncorrectable => (4, 0x802)
  | .hubcCorrected => (4, 0x803)
  | .hubcUncorrectable => (4, 0x804)
  | .hbmRetrainFail => (4, 0x805)
  | .hbmRetrainOverdue => (7, 0x806)
  | .hbmRepairStart => (4, 0x807)
  | .hbmRepairDone => (4, 0x808)
  | .hbmRepairLost => (4, 0x809)
  | .hbmNoSpare => (4, 0x80A)
  | .hbmWarm => (8, 0x80B)
  | .hbmHot => (8, 0x80C)
  | .hbmCritical => (8, 0x80D)
  | .linkDown => (6, 0x901)
  | .linkNarrow => (6, 0x902)
  | .linkRetrain => (6, 0x903)
  | .linkRetryExhausted => (6, 0x904)
  | .laneBer => (6, 0x905)
  | .linkTooLong => (6, 0x906)
  | .portNarrow => (6, 0x907)
  | .portDown => (6, 0x908)
  | .gatewayModule => (6, 0x909)
  | .gatewayLinkDown => (6, 0x90A)
  | .gatewayTunnelFail => (6, 0x90B)
  | .slotTrailerBad => (6, 0xA01)
  | .headerCrc => (4, 0xA02)
  | .msgTableFull => (4, 0xA03)
  | .rankUnmapped => (1, 0xA04)
  | .pathLost => (6, 0xA05)
  | .peerLost => (6, 0xA06)
  | .packetSunk => (6, 0xA07)
  | .legendBad => (5, 0xC01)
  | .surveyMismatch => (6, 0xC02)
  | .surveyLevel => (6, 0xC03)
  | .surveyReorient => (6, 0xC04)
  | .surveyCoordConflict => (6, 0xC05)
  | .surveyFwDiffers => (6, 0xC06)
  | .surveyTimeout => (7, 0xC07)
  | .reshapeStart => (6, 0xC08)
  | .reshapeDone => (6, 0xC09)
  | .reshapeBlocked => (6, 0xC0A)
  | .jobSuspended => (6, 0xC0B)
  | .sealAbort => (6, 0xD01)
  | .sealMissed => (7, 0xD02)
  | .sealRollback => (4, 0xD03)
  | .buddyLag => (7, 0xD04)
  | .buddyResend => (6, 0xD05)
  | .sheetRestored => (4, 0xD06)
  | .sheetLost => (4, 0xD07)
  | .powerOverCap => (8, 0xE01)
  | .powerCapUnmet => (8, 0xE02)
  | .alertFloor => (8, 0xE03)
  | .dieWarm => (8, 0xE04)
  | .dieHot => (8, 0xE05)
  | .thermalTrip => (8, 0xE06)
  | .fallbackStart => (8, 0xE07)
  | .fallbackEnd => (8, 0xE08)
  | .pathParity => (4, 0xF01)
  | .payloadCrc => (4, 0xF02)
  | .updateMismatch => (4, 0xF03)
  | .reduceMismatch => (4, 0xF04)
  | .twinMismatch => (4, 0xF05)
  | .fieldTestFail => (4, 0xF06)
  | .fieldTestLate => (7, 0xF07)
  | .suspectSteps => (4, 0xF08)
  | .faultLasting => (0, 0xF09)
  | .coreRetired => (4, 0xF0A)
  | .reset => (2, 0xF0B)
  | .hangRecovery => (7, 0xF0C)
  | .commandTimeout => (7, 0xF0D)
  | .dumpDone => (2, 0xF0E)
  | .dumpSkipped => (2, 0xF0F)
  | .eventsCoalesced => (0, 0xF10)
  | .controlWatchdog => (4, 0xF11)

end Sys2Proof.Machine
end

