-- ==== Sys2Proof/Machine/Num.lean ====
section
/-! DEFINITION. Exact values, the fifteen number formats (R106), conversion and rounding (R116 to R121), block scales
(R110 to R114), FP32 and INT32 arithmetic (R124) and the lane mix (R122). -/
namespace Sys2Proof.Machine

/-- An exact value: NaN, an infinity, or (−1)^neg × m × 2^e; a zero keeps its sign (R108). -/
inductive Val where
  | nan
  | inf (neg : Bool)
  | fin (neg : Bool) (m : Nat) (e : Int)
  deriving DecidableEq, Repr

/-- The number of bits of `n`. -/
def bitLen (n : Nat) : Nat :=
  if n = 0 then 0 else Nat.log2 n + 1

/-- `m × 2^(e − q)` as a natural number, for q ≤ e. -/
def alignTo (q : Int) (m : Nat) (e : Int) : Nat :=
  m * 2 ^ (e - q).toNat

/-- Comparison of the magnitudes m × 2^e and n × 2^f. -/
def magLe (m : Nat) (e : Int) (n : Nat) (f : Int) : Bool :=
  let q := min e f
  decide (alignTo q m e ≤ alignTo q n f)

/-- A signed dyadic number as a value; an exact zero is +0. -/
def Val.ofInt (i : Int) (e : Int := 0) : Val :=
  .fin (decide (i < 0)) i.natAbs e

/-- The signed significand of a finite value at exponent `q` ≤ its own. -/
def Val.scaledInt (q : Int) : Val → Int
  | .fin neg m e => if neg then -(alignTo q m e : Int) else (alignTo q m e : Int)
  | _ => 0

def Val.isFin : Val → Bool
  | .fin _ _ _ => true
  | _ => false

def Val.isZero : Val → Bool
  | .fin _ m _ => m == 0
  | _ => false

def Val.neg? : Val → Bool
  | .nan => false
  | .inf n => n
  | .fin n _ _ => n

def Val.negate : Val → Val
  | .nan => .nan
  | .inf n => .inf (!n)
  | .fin n m e => .fin (!n) m e

def Val.abs : Val → Val
  | .nan => .nan
  | .inf _ => .inf false
  | .fin _ m e => .fin false m e

/-- The exact sum; equal zeros keep their sign and any other zero sum is +0 (round to nearest). -/
def Val.add : Val → Val → Val
  | .nan, _ => .nan
  | _, .nan => .nan
  | .inf a, .inf b => if a = b then .inf a else .nan
  | .inf a, _ => .inf a
  | _, .inf b => .inf b
  | .fin a m e, .fin b n f =>
    if m = 0 && n = 0 then .fin (a && b) 0 0
    else
      let q := min e f
      .ofInt ((Val.fin a m e).scaledInt q + (Val.fin b n f).scaledInt q) q

/-- The exact product. -/
def Val.mul : Val → Val → Val
  | .nan, _ => .nan
  | _, .nan => .nan
  | .inf a, .inf b => .inf (a != b)
  | .inf a, .fin b n _ => if n = 0 then .nan else .inf (a != b)
  | .fin a m _, .inf b => if m = 0 then .nan else .inf (a != b)
  | .fin a m e, .fin b n f => .fin (a != b) (m * n) (e + f)

/-- The quotient num/den × 2^e with at least 128 significant bits and a sticky last bit where it is not exact, so that every rounding
of 32 or fewer significant bits, and the fraction of R121, come out as of the exact quotient. -/
def quotient (neg : Bool) (num den : Nat) (e : Int) : Val :=
  if num = 0 then .fin neg 0 0
  else
    let k := 128 + bitLen den
    let q := num * 2 ^ k / den
    if num * 2 ^ k % den = 0 then .fin neg q (e - k) else .fin neg (2 * q + 1) (e - k - 1)

/-- The exact quotient of two values, up to the sticky bit (R124). -/
def Val.div : Val → Val → Val
  | .nan, _ => .nan
  | _, .nan => .nan
  | .inf _, .inf _ => .nan
  | .inf a, .fin b _ _ => .inf (a != b)
  | .fin a _ _, .inf b => .fin (a != b) 0 0
  | .fin a m e, .fin b n f =>
    if n = 0 then (if m = 0 then .nan else .inf (a != b)) else quotient (a != b) m n (e - f)

/-- Floor of the square root, by halving the bits from `k` on. -/
def isqrtFrom (n : Nat) : Nat → Nat → Nat
  | 0, r => r
  | k + 1, r =>
    let c := r + 2 ^ k
    isqrtFrom n k (if c * c ≤ n then c else r)

/-- Floor of the square root. -/
def isqrt (n : Nat) : Nat :=
  isqrtFrom n (bitLen n / 2 + 1) 0

/-- The square root, with a sticky last bit where it is not exact. -/
def Val.sqrt : Val → Val
  | .nan => .nan
  | .inf neg => if neg then .nan else .inf false
  | .fin neg m e =>
    if m = 0 then .fin neg 0 0
    else if neg then .nan
    else
      let m := if e % 2 = 0 then m else 2 * m
      let e := if e % 2 = 0 then e else e - 1
      let n := m * 2 ^ 256
      let r := isqrt n
      if r * r = n then .fin false r ((e - 256) / 2) else .fin false (2 * r + 1) ((e - 256) / 2 - 1)

/-- The order of values used by comparisons and by minimum and maximum, which order −0 below +0 (R124). Neither is NaN. -/
def Val.lt (zeroOrder : Bool) : Val → Val → Bool
  | .nan, _ => false
  | _, .nan => false
  | .inf a, .inf b => a && !b
  | .inf a, _ => a
  | _, .inf b => !b
  | .fin a m e, .fin b n f =>
    if m = 0 && n = 0 then zeroOrder && a && !b
    else
      let q := min e f
      decide ((Val.fin a m e).scaledInt q < (Val.fin b n f).scaledInt q)

/-! ## Formats (R106) -/

/-- A floating-point layout: exponent bits, significand bits, bias, whether it has infinities and NaNs. -/
structure FloatFmt where
  eb : Nat
  mb : Nat
  bias : Nat
  hasInf : Bool
  hasNan : Bool
  deriving DecidableEq, Repr

/-- The layout of a floating-point format code. -/
def floatFmt (code : Nat) : Option FloatFmt :=
  match code with
  | 0 => some ⟨8, 23, 127, true, true⟩
  | 1 => some ⟨8, 7, 127, true, true⟩
  | 2 => some ⟨5, 10, 15, true, true⟩
  | 3 => some ⟨4, 3, 7, false, true⟩
  | 4 => some ⟨5, 2, 15, true, true⟩
  | 5 => some ⟨3, 2, 3, false, false⟩
  | 6 => some ⟨2, 3, 1, false, false⟩
  | 7 => some ⟨2, 1, 1, false, false⟩
  | _ => none

/-- The element width in bits. -/
def fmtBits (code : Nat) : Nat :=
  [32, 16, 16, 8, 8, 6, 6, 4, 8, 8, 4, 16, 32, 8, 8].getD code 8

def isFloatFmt (code : Nat) : Bool := decide (code < 8)

/-- The format takes a block scale. -/
def scalable (code : Nat) : Bool := decide (3 ≤ code) && decide (code ≤ 0xA)

/-- Range of an integer format; the scale formats as tiles are plain 8-bit data, read as 0 to 255 (log entry 24). -/
def intRange (code : Nat) : Int × Int :=
  match code with
  | 0x8 => (-128, 127)
  | 0x9 => (0, 255)
  | 0xA => (-8, 7)
  | 0xB => (-32768, 32767)
  | 0xC => (-2147483648, 2147483647)
  | _ => (0, 255)

/-- The exponent of a format's smallest subnormal. -/
def FloatFmt.qmin (f : FloatFmt) : Int := 1 - (f.bias : Int) - f.mb

/-- The largest finite significand and its exponent. -/
def FloatFmt.maxMag (f : FloatFmt) : Nat × Int :=
  let top : Int := 2 ^ f.eb - 1 - (f.bias : Int) - f.mb
  if f.hasInf then (2 ^ (f.mb + 1) - 1, top - 1)
  else if f.hasNan then (2 ^ (f.mb + 1) - 2, top)
  else (2 ^ (f.mb + 1) - 1, top)

/-- The positive quiet NaN of a format (R108); the formats without NaN write +0 (R117). -/
def FloatFmt.nanCode (f : FloatFmt) : Nat :=
  if f.hasInf then (2 ^ f.eb - 1) * 2 ^ f.mb + 2 ^ (f.mb - 1)
  else if f.hasNan then 2 ^ (f.eb + f.mb) - 1
  else 0

def FloatFmt.signBit (f : FloatFmt) (neg : Bool) : Nat :=
  if neg then 2 ^ (f.eb + f.mb) else 0

/-- The value of a code (R106). -/
def FloatFmt.decode (f : FloatFmt) (w : Nat) : Val :=
  let m := w % 2 ^ f.mb
  let e := w / 2 ^ f.mb % 2 ^ f.eb
  let neg := natBit w (f.eb + f.mb)
  if f.hasInf && e = 2 ^ f.eb - 1 then (if m = 0 then .inf neg else .nan)
  else if f.hasNan && !f.hasInf && e = 2 ^ f.eb - 1 && m = 2 ^ f.mb - 1 then .nan
  else if e = 0 then .fin neg m f.qmin
  else .fin neg (2 ^ f.mb + m) (f.qmin + e - 1)

/-- The code of the rounded magnitude n × 2^q, n at most 2^(mb+1). -/
def FloatFmt.encode (f : FloatFmt) (neg : Bool) (n : Nat) (q : Int) : Nat :=
  let n' := if 2 ^ (f.mb + 1) ≤ n then n / 2 else n
  let q' := if 2 ^ (f.mb + 1) ≤ n then q + 1 else q
  f.signBit neg +
    (if n' < 2 ^ f.mb then n' else ((q' - f.qmin).toNat + 1) * 2 ^ f.mb + (n' - 2 ^ f.mb))

/-- Round the magnitude m × 2^e to a multiple of 2^q in a mode (R119): to nearest with ties to even, toward zero, or
stochastically with a 32-bit draw (R121). -/
def roundMag (mode draw : Nat) (m : Nat) (e q : Int) : Nat :=
  if q ≤ e then alignTo q m e
  else
    let s := (q - e).toNat
    let n := m / 2 ^ s
    let rem := m % 2 ^ s
    if mode = 0 then
      (if 2 * rem > 2 ^ s || (2 * rem = 2 ^ s && n % 2 = 1) then n + 1 else n)
    else if mode = 1 then n
    else if 2 ^ 32 ≤ rem * 2 ^ 32 / 2 ^ s + draw then n + 1
    else n

/-- A converted element: its code, whether it sets the sticky overflow flag, and whether it saturated (R116 to R118). -/
structure Conv where
  code : Nat
  overflowed : Bool := false
  sat : Bool := false
  deriving DecidableEq, Repr

/-- Conversion to a floating-point format (R116, R117). -/
def FloatFmt.conv (f : FloatFmt) (mode draw : Nat) : Val → Conv
  | .nan => { code := f.nanCode, overflowed := true }
  | .inf neg =>
    if f.hasInf then { code := f.signBit neg + (2 ^ f.eb - 1) * 2 ^ f.mb, overflowed := true }
    else if f.hasNan then { code := f.nanCode, overflowed := true }
    else { code := f.encode neg f.maxMag.1 f.maxMag.2, overflowed := true }
  | .fin neg m e =>
    let q := max (e + bitLen m - (f.mb + 1)) f.qmin
    let n := roundMag mode draw m e q
    if magLe n q f.maxMag.1 f.maxMag.2 then { code := f.encode neg n q }
    else if f.hasInf && mode ≠ 1 then { code := f.signBit neg + (2 ^ f.eb - 1) * 2 ^ f.mb, overflowed := true }
    else { code := f.encode neg f.maxMag.1 f.maxMag.2, sat := true }

/-- Conversion to an integer of range `r`: the value, saturating (R117). -/
def intConv (r : Int × Int) (mode draw : Nat) : Val → Int × Bool × Bool
  | .nan => (0, true, false)
  | .inf neg => (if neg then r.1 else r.2, true, false)
  | .fin neg m e =>
    let n := roundMag mode draw m e 0
    let i : Int := if neg then -(n : Int) else n
    if i < r.1 then (r.1, false, true) else if r.2 < i then (r.2, false, true) else (i, false, false)

/-- Conversion to a format code. -/
def convert (code mode draw : Nat) (v : Val) : Conv :=
  match floatFmt code with
  | some f => f.conv mode draw v
  | none =>
    let (i, overflowed, sat) := intConv (intRange code) mode draw v
    { code := unsigned (fmtBits code) i, overflowed, sat }

/-- The value of an element code without its scale. -/
def decodeElem (code w : Nat) : Val :=
  match floatFmt code with
  | some f => f.decode w
  | none =>
    if (intRange code).1 < 0 then .ofInt (signed (fmtBits code) w) else .ofInt (w % 2 ^ fmtBits code : Nat)

/-! ## FP32 and INT32 arithmetic (R124) -/

def fp32 : FloatFmt := ⟨8, 23, 127, true, true⟩

/-- FP32 bits read as a value. -/
def rd32 (w : Nat) : Val := fp32.decode w

/-- Round a value to FP32 bits, to nearest, ties to even. -/
def rne32 (v : Val) : Nat := (fp32.conv 0 0 v).code

def fAdd (a b : Nat) : Nat := rne32 ((rd32 a).add (rd32 b))
def fSub (a b : Nat) : Nat := rne32 ((rd32 a).add (rd32 b).negate)
def fMul (a b : Nat) : Nat := rne32 ((rd32 a).mul (rd32 b))
def fDiv (a b : Nat) : Nat := rne32 ((rd32 a).div (rd32 b))
def fFma (a b c : Nat) : Nat := rne32 (((rd32 a).mul (rd32 b)).add (rd32 c))
def fSqrt (a : Nat) : Nat := rne32 (rd32 a).sqrt

/-- Minimum and maximum: the quiet NaN if either input is NaN, −0 below +0 (R124). -/
def fMin (a b : Nat) : Nat :=
  if rd32 a = .nan || rd32 b = .nan then fp32.nanCode
  else if (rd32 b).lt true (rd32 a) then b else a
def fMax (a b : Nat) : Nat :=
  if rd32 a = .nan || rd32 b = .nan then fp32.nanCode
  else if (rd32 a).lt true (rd32 b) then b else a

/-- A NaN is read as the quiet NaN of R108. -/
def fAbs (a : Nat) : Nat := rne32 (rd32 a).abs
def fNeg (a : Nat) : Nat := rne32 (rd32 a).negate
def fLt (a b : Nat) : Bool := (rd32 a).lt false (rd32 b)
def fEq (a b : Nat) : Bool :=
  rd32 a ≠ .nan && rd32 b ≠ .nan && !fLt a b && !fLt b a
def fLe (a b : Nat) : Bool := fLt a b || fEq a b

/-- The value is infinite or NaN. -/
def fpBad (w : Nat) : Bool := !(rd32 w).isFin

/-- An INT32 result: its bits, and whether it saturated. -/
def isat (i : Int) : Nat × Bool :=
  if i < -2147483648 then (0x80000000, true)
  else if 2147483647 < i then (0x7FFFFFFF, true)
  else (unsigned 32 i, false)

/-! ## Block scales (R110 to R114) -/

/-- The value of a scale code: num × 2^e, zero, or NaN (R106, R112). Scale format 0 is 1. -/
inductive Scale where
  | nan
  | zero
  | mag (num : Nat) (e : Int)
  deriving DecidableEq, Repr

def decodeScale (sfmt w : Nat) : Scale :=
  if sfmt = 1 then (if w = 0xFF then .nan else .mag 1 ((w : Int) - 127))
  else if sfmt = 2 then
    let w := w % 128
    if w = 0x7F then .nan
    else if w = 0 then .zero
    else if w / 8 = 0 then .mag w (-9)
    else .mag (8 + w % 8) ((w / 8 : Nat) - 7 - 3)
  else .mag 1 0

/-- Decode an element with its block's scale, exactly (R112). -/
def decodeScaled (s : Scale) (v : Val) : Val :=
  match s with
  | .nan => .nan
  | .zero =>
    match v with
    | .fin neg _ _ => .fin neg 0 0
    | v => v
  | .mag n f =>
    match v with
    | .fin neg m e => .fin neg (m * n) (e + f)
    | v => v

/-- The largest finite magnitude of a scalable format as m × 2^e (R113). -/
def fmax (code : Nat) : Nat × Int :=
  match floatFmt code with
  | some f => f.maxMag
  | none => ((intRange code).2.toNat, 0)

/-- The larger of two magnitudes. -/
def magMax (a : Nat × Int) (v : Val) : Nat × Int :=
  match v with
  | .fin _ m e => if magLe m e a.1 a.2 then a else (m, e)
  | _ => a

/-- The smallest exponent e with a ≤ fmax × 2^e, searched in `fuel` steps from `e`. -/
def smallestE (a f : Nat × Int) : Nat → Int → Int
  | 0, e => e
  | n + 1, e => if magLe a.1 a.2 f.1 (f.2 + e) then e else smallestE a f n (e + 1)

/-- The first UE4M3 code from `w` on whose value v has a ≤ fmax × v; 0x7F when none has. -/
def smallestUe4m3 (a f : Nat × Int) : Nat → Nat → Nat
  | 0, w => w
  | n + 1, w =>
    match decodeScale 2 w with
    | .mag m e => if magLe a.1 a.2 (f.1 * m) (f.2 + e) then w else smallestUe4m3 a f n (w + 1)
    | _ => w

/-- The scale code of a block, and whether it was clamped (R113, R114). -/
def chooseScale (code sfmt : Nat) (xs : List Val) : Nat × Bool :=
  if xs.any fun v => !v.isFin then (if sfmt = 1 then 0xFF else 0x7F, false)
  else
    let a := xs.foldl magMax (0, 0)
    if a.1 = 0 then (if sfmt = 1 then 0x7F else 0x38, false)
    else
      let f := fmax code
      if sfmt = 1 then
        let base : Int := a.2 + bitLen a.1 - f.2 - bitLen f.1 - 1
        let e := smallestE a f 4 base
        if e < -127 then (0, true) else if 127 < e then (254, true) else ((e + 127).toNat, false)
      else
        -- every positive quotient rounds up to at least code 0x01, so only the upper clamp can act
        let w := smallestUe4m3 a f 127 1
        if 0x7F ≤ w then (0x7E, true) else (w, false)

/-- The quotient x / s (R113). -/
def divScale (s : Scale) (v : Val) : Val :=
  match s, v with
  | .mag 1 f, .fin neg m e => .fin neg m (e - f)
  | .mag n f, .fin neg m e => quotient neg m n (e - f)
  | _, v => v

/-! ## The lane mix (R122, R176) -/

/-- One round of the lane mix. -/
def mixRound (k x : BitVec 64) : BitVec 64 :=
  let x := (x ^^^ k) + 0x9E3779B97F4A7C15
  let x := (x ^^^ (x >>> 30)) * 0xBF58476D1CE4E5B9
  let x := (x ^^^ (x >>> 27)) * 0x94D049BB133111EB
  x ^^^ (x >>> 31)

/-- The lane mix: key k, counter c. -/
def mix (k c : BitVec 64) : BitVec 64 :=
  mixRound k (mixRound k (mixRound k (mixRound k c)))

/-- Two 32-bit numbers as one 64-bit number. -/
def pair64 (hi lo : Nat) : BitVec 64 :=
  BitVec.ofNat 64 (hi % 2 ^ 32 * 2 ^ 32 + lo % 2 ^ 32)

/-- The 32-bit draw of a tensor element (R122). -/
def draw (seed : BitVec 64) (shard step stream row col : Nat) : Nat :=
  let k := mix (mix seed (pair64 shard step)) (BitVec.ofNat 64 (stream % 2 ^ 16))
  (mix k (pair64 row col)).toNat / 2 ^ 32

/-- The draw of the update engine for variant copy `var` (R176). -/
def updDraw (seed : BitVec 64) (shard step stream var row col : Nat) : Nat :=
  let k := mix (mix (mix seed (pair64 shard step)) (BitVec.ofNat 64 (stream % 2 ^ 16))) (BitVec.ofNat 64 var)
  (mix k (pair64 row col)).toNat / 2 ^ 32

end Sys2Proof.Machine
end

