-- ==== Sys2Proof/Syntax.lean ====
section
/-! DEFINITION. The commands of the module: one constructor of `Instr` for every row of
spec/opcode_table.json, in the table's order, with what each command carries.

A command carries what comes from outside State: a host's parameters and buffer, a message's fields, a measured
quantity, the outcome of a physical process (log entry 10). -/
namespace Sys2Proof

/-! ## What commands carry -/

/-- A die of the package (R13). -/
inductive Die where
  | compute (i : Fin 16)
  | hub (i : Fin 8)
  | link (i : Fin 6)
  | control (i : Fin 2)
  deriving DecidableEq, Repr

/-- A cause of the alert floor (R346). -/
inductive AlertCause where
  /-- VR_ALERT_N asserted by the tray or a regulator. -/
  | pin
  /-- 50 µs average of input power above 5,800 W. -/
  | power
  /-- Input voltage below 40 V. -/
  | inputLow
  /-- R336 at contour 3. -/
  | capUnmet
  deriving DecidableEq, Repr

/-- Why a channel became due for retraining (R199). -/
inductive DueCause where
  | timer | temperature | interfaceErrors
  deriving DecidableEq, Repr

/-- A Cofin generation (R383). -/
inductive CofinGen where
  | gen2 | gen3
  deriving DecidableEq, Repr

/-- The fields every mailbox descriptor has (R394), with the outcome of the host-memory reads the command makes. -/
structure Cmd where
  tag : Word
  mboxByte : Byte := 0
  flags : Byte := 0
  timeoutUs : Word := 0
  buffer : BitVec 64 := 0
  length : Word := 0
  /-- Every read of host memory that the command makes was answered without error (R384). -/
  dmaOk : Bool := true
  deriving DecidableEq, Repr

/-- A descriptor read from a command ring (R394). -/
structure Descriptor where
  opcode : BitVec 16
  cmd : Cmd
  deriving DecidableEq, Repr

/-- The frame parameters of JOB_BIND, bytes 24 to 45 (R39). -/
structure BindParams where
  tickPeriod : Word
  guardBand : Word := 0
  baseTick : BitVec 64
  jobTag : BitVec 16
  horizon : BitVec 16 := 0
  retries : Byte := 0
  abortSeal : Byte := 0
  deriving DecidableEq, Repr

/-- The parameters of TENSOR_REGISTER (R405). -/
structure TensorParams where
  tensor : BitVec 16
  fmt : Byte
  /-- [2:0] STATES, [3] TABLE, [4] VERSIONED. -/
  flags : Byte
  hub : Byte
  gradFmt : Byte
  gradSpace : Byte
  rows : Word
  cols : Word
  gradOff : BitVec 64
  gRows : Word
  nslotsM1 : BitVec 16
  deriving DecidableEq, Repr

/-- An address of WRITE and READ (R404). -/
structure MemAddr where
  base : BitVec 64
  space : Byte
  slot : Byte := 0
  variantSlot : BitVec 16 := 0
  part : Byte := 0
  target : Word := 0xFFFFFFFF
  deriving DecidableEq, Repr

/-- The parameters of GW_PORT (R404). -/
structure GwPortParams where
  port : Byte
  ipv6 : Bool
  vlan : BitVec 16
  udpPort : BitVec 16
  plen : Byte
  pfc : Byte
  address : BitVec 128
  deriving DecidableEq, Repr

/-- The parameters of GW_TUNNEL (R404). -/
structure GwTunnelParams where
  port : Byte
  index : BitVec 16
  remotePort : BitVec 16
  jobTag : BitVec 16
  remote : BitVec 128
  mtu : BitVec 16
  deriving DecidableEq, Repr

/-- The parameters of GW_QP (R404). -/
structure GwQpParams where
  port : Byte
  qpn : Word
  remoteQpn : Word
  gid : Byte
  mtuCode : Byte
  sendPsn : Word
  recvPsn : Word
  remote : BitVec 128
  remoteGid : BitVec 96
  deriving DecidableEq, Repr

/-- A hardware upset that a check finds while a command runs (R360 to R363, R196, R197, R83, R95). -/
inductive Upset where
  | none
  /-- A word that the unit uses, as it reads it, and the parity bit that accompanies it (R358, R360). -/
  | pathParity (word : Word) (parity : Bool)
  /-- ECC corrected a 64-byte block the command reads: its block number in `mem` (R196). -/
  | corrected (block : Nat)
  /-- ECC could not correct a block the command reads (R197). -/
  | uncorrectable (block : Nat)
  /-- The instruction-cache line failed parity when read (R83). -/
  | icacheParity
  /-- The native word decodes to no operation (R83). -/
  | badNativeWord
  /-- Parity error in a weight read or register: array, pass, logical weight row (R95). -/
  | arrayParity (array : Fin 4) (pass : BitVec 8) (row : BitVec 16)
  /-- The check column mismatched after the last unit: array, first failing row of D (R95). -/
  | arrayCheck (array : Fin 4) (row : BitVec 16)
  /-- The two copies of a duplicated datapath disagreed (R362). -/
  | datapath
  /-- The twin comparator saw different outputs (R363). -/
  | twin
  deriving DecidableEq, Repr

/-- Where a macro-op issues: the logical core, the strand whose head it is, and what the hardware's checks found. -/
structure Issue where
  core : Fin 120
  strand : Fin 64
  upset : Upset := .none
  deriving DecidableEq, Repr

/-- A macro-op's fields (R137), without the opcode, which the constructor gives. -/
structure MacroOp where
  flags : Byte := 0
  waitQ : Fin 32 := 0
  waitN : BitVec 3 := 0
  postQ : Fin 32 := 0
  postN : BitVec 3 := 0
  fmtMod : BitVec 4 := 0
  rnd : BitVec 2 := 0
  pass : BitVec 2 := 0
  variantSlot : BitVec 12 := 0
  op0 : BitVec 64 := 0xFFFF
  op1 : BitVec 64 := 0xFFFF
  op2 : BitVec 64 := 0xFFFF
  deriving DecidableEq, Repr

/-- A slot trailer (R241); the payload stands beside it. -/
structure Slot where
  circuit : Byte
  postQ : BitVec 5
  postN : BitVec 3
  dstCore : BitVec 7
  lastSlot : Bool
  attempt : Byte
  frameLo : BitVec 16
  jobTag : BitVec 16
  payload : Bytes
  crc : Word
  deriving DecidableEq, Repr

/-- A packet: the header of R245, its payload and the tail's check word (R359). -/
structure Packet where
  type : BitVec 4
  vc : BitVec 2
  ordered : Bool := false
  last : Bool := true
  reversed : BitVec 6 := 0
  poison : Bool := false
  jobTag : BitVec 16
  /-- DEST_COORD, one byte per axis, X lowest; the source's for TYPE 0x6. -/
  coord : BitVec 48
  destCore : BitVec 7 := 127
  postQ : BitVec 5 := 0
  postN : BitVec 3 := 0
  srcRank : BitVec 17 := 0
  srcCore : BitVec 7 := 0
  attempt : Byte := 0
  msgId : Word := 0
  msgBytes : Word := 0
  offset : Word := 0
  /-- PAYLOAD_BYTES; a landing acknowledgement repeats its packet's. -/
  bytes : BitVec 13 := 0
  aop : BitVec 4 := 0
  destView : BitVec 64 := 0
  replyView : BitVec 64 := 0
  payload : Bytes := []
  hcrc : Word := 0
  /-- CRC-32C of the payload in the tail flit. -/
  tail : Word := 0
  deriving DecidableEq, Repr

/-- A packet at a port's input, and whether it came into an adaptive buffer there (R252). -/
structure Inbound where
  packet : Packet
  adaptive : Bool := false
  deriving DecidableEq, Repr

/-- A seal message's 64-byte payload (R318). -/
structure SealMsg where
  jobTag : BitVec 16
  verdict : Bool := false
  cause : BitVec 16 := 0
  step : Word := 0
  epoch : Word := 0
  chartEpoch : Word := 0
  count : Word := 0
  integ : Word := 0
  granules : BitVec 64 := 0
  deriving DecidableEq, Repr

/-- One lane's codeword as the receiver's decoder left it (R215): how many of its 544 symbols were wrong, whether the decoder took more than it can
correct for a codeword (R220), its 20-bit link field and its 640 data bytes. -/
structure Codeword where
  wrong : Nat
  miscorrected : Bool := false
  link : BitVec 20
  data : Bytes
  deriving DecidableEq, Repr

/-- A codeword group as the receiver sees it (R217): the trained lanes' codewords in increasing lane number. -/
structure Group where
  lanes : List Codeword
  deriving DecidableEq, Repr

/-- A telemetry block (R391). -/
inductive Block where
  | meridian | hbm | link | port | gateway | router | survey | seal | power | integrity | fieldTest | coreMap | cores | hubs
  deriving DecidableEq, Repr

/-- Quantities the sensors and counters of the hardware give at a refresh (R37, R206, R226, R236, R350). -/
structure Measured where
  energyUj : BitVec 64 := 0
  pIn : BitVec 16 := 0
  vIn : BitVec 16 := 0
  iIn : BitVec 16 := 0
  inlet : BitVec 16 := 0
  outlet : BitVec 16 := 0
  /-- Symbols corrected over the last 1 s and optical-engine temperature, by link. -/
  corrected : List (Fin 24 × Word) := []
  oeTemp : List (Fin 24 × BitVec 16) := []
  /-- Uncorrectable codewords of a gateway port since its last refresh. -/
  fec : List (Fin 2 × Word) := []
  deriving DecidableEq, Repr

/-- What TICK finds outside State: the energies of the frame that ended (R337) and whether some unit will not report in time (R317). -/
structure TickEnv where
  compute : Nat := 0
  hubs : Nat := 0
  hbm : Nat := 0
  links : Nat := 0
  unitsSilent : Bool := false
  deriving DecidableEq, Repr

/-- Where an Ethernet frame arrives. -/
inductive EthPort where
  | management
  | gateway (g : Fin 2)
  deriving DecidableEq, Repr

/-- A RoCEv2 operation of R233, after the transport's own header processing. -/
inductive RoceOp where
  | sendMsg (data : Bytes)
  | write (addr : MemAddr) (data : Bytes)
  | read (addr : MemAddr) (length : Nat)
  /-- A congestion notification packet. -/
  | cnp
  deriving DecidableEq, Repr

/-- A packet of a queue pair: its operation and whether the network has marked it as congested. -/
structure RoceRequest where
  op : RoceOp
  congested : Bool := false
  deriving DecidableEq, Repr

/-- A row's result of a scrubbed or repaired block. -/
inductive BlockResult where
  | corrected | uncorrectable
  deriving DecidableEq, Repr

/-- What a field test reports (R365): the segment, the unit and, for an array, the physical row and column. -/
structure TestResult where
  passed : Bool
  segment : Fin 3 := 1
  unit : Byte := 0
  row : Byte := 0
  col : Byte := 0
  deriving DecidableEq, Repr

/-! ## The commands -/

/-- The commands of spec/opcode_table.json, in its order. -/
inductive Instr where
  -- 48 V, sideband and the alert floor (R414, R432, R435, R346 to R349)
  | powerApplied
  | standbyRegulation (ok : Bool)
  | inputLoss
  | inputOvervoltage
  | overvoltageRecovery
  | alertFloor (cause : AlertCause)
  | floorHoldEnd
  /-- The 10 ms average in mW. -/
  | powerOverCap (milliwatts : Nat)
  /-- The low time of MOD_RESET_N in ns. -/
  | modReset (lowNs : Nat)
  | controlMismatch
  | controlWatchdog
  | thermalTrip (die : Die)
  /-- The reading in units of 0.125 °C. -/
  | dieTemperatureReading (die : Die) (temp : Int)
  | coolantOutlet (temp : Int)
  | stackTemperatureReading (stack : Fin 24) (temp : Int)
  -- Start-up steps 5 to 9 (R414, R420)
  | mainDomainPowered (ok : Bool) (testFailed : List (Fin 128))
  | hbmTrainingDone (failed : List (Fin 24 × Fin 32))
  | linkTrainingEnd
  | startStepSlow
  -- Cofin and the host window (R383 to R399)
  | cofinTrainingTimer
  | cofinUp (gen : CofinGen)
  | cofinDown
  | registerWrite (offset : Nat) (size : Nat) (value : BitVec 64)
  | doorbell (m : Fin 7) (tail : Word)
  | cmpHeadWrite (m : Fin 7) (head : Word)
  | mailboxEnable (m : Fin 7) (irqEn : Bool)
  | mailboxReset (m : Fin 7)
  | eventPendingClear (mask : Word)
  | commandFetch (m : Fin 7) (d : Descriptor) (readOk : Bool)
  | completionIrqDelay (m : Fin 7)
  | commandTimeout (m : Fin 7) (tag : Word)
  | dumpUnitUnreachable (unit : BitVec 12)
  | dumpDone
  | dumpHoldTimeout
  | dumpingResetHoldExpiry
  | coreResetTimeout (core : Fin 128)
  | eventsCoalesced
  -- Mailbox 0 (R402)
  | status (c : Cmd)
  | reset (c : Cmd) (target : BitVec 16)
  | logFetch (c : Cmd) (firstSeq : Word)
  | logClear (c : Cmd)
  | dumpFetch (c : Cmd) (offset : BitVec 64)
  | dumpDiscard (c : Cmd)
  | faultPolicy (c : Cmd) (code : BitVec 16) (source : BitVec 16) (w : Word) (n : Byte)
  | fwLoad (c : Cmd) (image : Bytes)
  | configLoad (c : Cmd) (record : Bytes)
  | meridianSet (c : Cmd) (value : BitVec 64)
  | meridianSlew (c : Cmd) (rate : Word) (durationMs : Word)
  | standby (c : Cmd)
  | wake (c : Cmd)
  | cancel (c : Cmd) (tag : Word)
  -- Mailbox 1 (R403)
  | jobBind (c : Cmd) (p : BindParams)
  | jobUnbind (c : Cmd)
  | bindingEnd
  | planLoad (c : Cmd) (fileLen : Word) (buffer : Bytes)
  | planEvict (c : Cmd)
  | planDispatch (c : Cmd) (frame : BitVec 64) (step : Word) (phaseSeq : BitVec 16)
  -- Mailbox 2 (R404, R405)
  | memoryLayout (c : Cmd) (rs : Word)
  | arenaSet (c : Cmd) (space : Byte) (hub : Byte) (bytes : BitVec 64)
  | tensorRegister (c : Cmd) (p : TensorParams)
  | tensorUnregister (c : Cmd) (tensor : BitVec 16)
  | write (c : Cmd) (addr : MemAddr) (data : Bytes) (upset : Upset)
  | read (c : Cmd) (addr : MemAddr) (buddy : Bool) (upset : Upset)
  | gwPort (c : Cmd) (p : GwPortParams)
  | gwTunnelAdd (c : Cmd) (p : GwTunnelParams)
  | gwTunnelRemove (c : Cmd) (p : GwTunnelParams)
  | gwQpCreate (c : Cmd) (p : GwQpParams)
  | gwQpReady (c : Cmd) (p : GwQpParams)
  | gwQpDestroy (c : Cmd) (p : GwQpParams)
  -- Mailbox 3 (R295, R406)
  | portConfig (c : Cmd) (data : Bytes)
  | quiesce (c : Cmd) (mask : BitVec 16)
  | survey (c : Cmd)
  | legendFetch (c : Cmd)
  | gazetteerLoad (c : Cmd) (data : Bytes)
  | chartLoad (c : Cmd) (data : Bytes)
  | insetStage (c : Cmd) (switchFrames : BitVec 16) (planCount : Byte) (data : Bytes)
  | reshape (c : Cmd) (afterStep : Word) (windowFrames : Word) (data : Bytes)
  -- Mailbox 4 (R407)
  | licenceInstall (c : Cmd) (data : Bytes)
  | licenceList (c : Cmd)
  | identityCert (c : Cmd)
  | attest (c : Cmd) (nonce : Bytes)
  | cartoucheFetch (c : Cmd) (step : Word) (manifest : Bytes)
  -- Mailbox 5 (R408)
  | powerConfig (c : Cmd) (cap : BitVec 16) (flags : Byte) (hyst : Byte) (holdUs : Word)
  | telemetrySnapshot (c : Cmd)
  -- Mailbox 6 (R409)
  | dump (c : Cmd)
  | dumpRegion (c : Cmd) (hub : Byte)
  | scoreboardRun (c : Cmd) (fileLen : Word) (buffer : Bytes)
  | fieldTest (c : Cmd) (core : Byte)
  | coreInspect (c : Cmd) (core : Byte)
  -- Management (R436 to R440)
  | mgmtLogRequest (firstSeq : Word) (count : Byte)
  | mgmtIdentRequest
  | icmpEchoRequest (port : EthPort) (payload : Bytes)
  | mgmtApply
  | i3cSetdasa (addr : BitVec 7)
  | i3cEntdaa (addr : BitVec 7)
  | pmbusPage (page : Byte)
  | voutMode
  | statusWord
  /-- The input voltage in mV at the last 1 ms refresh. -/
  | readVin (millivolts : Nat)
  | readVout (millivolts : Nat)
  | readIout (milliamps : Nat)
  | readTemperature1 (milliCelsius : Int)
  | readPout (milliwatts : Nat)
  | pmbusRevision
  | pmbusWriteRefused (command : Byte)
  | bypass
  | idcode
  /-- The pins sampled and the cells loaded, one bit per boundary cell. -/
  | samplePreload (pins : Word) (cells : Word)
  | extest
  | jtagTestLogicReset
  | telemetryRefresh (block : Block) (m : Measured)
  -- Frames (R38 to R53) and field tests (R364, R365)
  | tick (e : TickEnv)
  | fieldTestStart (core : Fin 120)
  | fieldTestDue (core : Fin 120)
  | fieldTestLate (core : Fin 120)
  | fieldTestDone (core : Fin 120) (r : TestResult)
  | deadline
  /-- The 128 bits of R43. -/
  | frameBoundaryMessage (link : Fin 24) (msg : BitVec 128)
  | frameAbort (jobTag : BitVec 16) (step : Word) (attempt : Byte) (fo : BitVec 64)
  -- The meridian counter (R28 to R36)
  | meridianExchange (link : Fin 24)
  /-- The four timestamps in units of 1/32 fabric cycle; the far end's depth comes from its legend. -/
  | meridianExchangeReceived (link : Fin 24) (t1 t2 t3 t4 : Int)
  | meridianHoldover
  | meridianUnlock
  | meridianStep
  -- Macro-ops (R61, R138, R139)
  | nop (i : Issue) (m : MacroOp)
  | wait (i : Issue) (m : MacroOp)
  | post (i : Issue) (m : MacroOp)
  | fence (i : Issue) (m : MacroOp)
  | frameEnd (i : Issue) (m : MacroOp)
  | load (i : Issue) (m : MacroOp)
  | store (i : Issue) (m : MacroOp)
  | gather (i : Issue) (m : MacroOp)
  | scatter (i : Issue) (m : MacroOp)
  | fill (i : Issue) (m : MacroOp)
  | mma (i : Issue) (m : MacroOp)
  | mmas (i : Issue) (m : MacroOp)
  | vprog (i : Issue) (m : MacroOp)
  | vred (i : Issue) (m : MacroOp)
  | seed (i : Issue) (m : MacroOp)
  | send (i : Issue) (m : MacroOp)
  | recv (i : Issue) (m : MacroOp)
  | put (i : Issue) (m : MacroOp)
  | get (i : Issue) (m : MacroOp)
  | cred (i : Issue) (m : MacroOp)
  | turn (i : Issue) (m : MacroOp)
  | upda (i : Issue) (m : MacroOp)
  | updb (i : Issue) (m : MacroOp)
  | upds (i : Issue) (m : MacroOp)
  | macroOpCompletion (core : Fin 120) (entry : Nat) (upset : Upset)
  | icacheRefillDone (core : Fin 120) (line : Nat) (upset : Upset)
  -- HBM (R198 to R203) and the sheet sweep (R316)
  | scrub (hub : Fin 8) (channel : Fin 93) (row : Nat) (found : List (Fin 64 × BlockResult))
  /-- The blocks of the channel that the copy could not read, as 64·row + block. -/
  | hbmRepairDone (hub : Fin 8) (lost : List Nat)
  | retrainDue (hub : Fin 8) (channel : Fin 93) (why : DueCause)
  | retrainDone (hub : Fin 8) (channel : Fin 93) (converged : Bool)
  | hbmRetrainOverdue (hub : Fin 8) (channel : Fin 93)
  | sweepDone (hub : Fin 8)
  -- Links (R219 to R225)
  | linkDark (link : Fin 24)
  | widthAgreement (link : Fin 24) (msg : BitVec 128) (ownLanes : BitVec 4)
  | linkRetryTimer (link : Fin 24)
  /-- Each lane's pre-FEC BER in units of 10^-12. -/
  | laneBerWindow (link : Fin 24) (ber0 ber1 ber2 ber3 : Nat)
  | laneLightLoss (link : Fin 24) (lane : Fin 4)
  | linkRetrainDone (link : Fin 24) (lanes : BitVec 4)
  | groupReceived (link : Fin 24) (g : Group)
  | linkRetryExhausted (link : Fin 24)
  -- Circuits and packets (R240 to R260)
  | slotTransmit (circuit : Byte) (window : Nat)
  | slotForward (link : Fin 24) (circuit : Byte)
  /-- The arrival of the first payload byte, in ns of meridian time times 100. -/
  | slotArrival (link : Fin 24) (arriveCns : Nat) (slot : Slot)
  | packetSend (port : Fin 12)
  | creditFlit (port : Fin 12) (escFree : BitVec 8) (adpFree : BitVec 4)
  | packetArrival (port : Fin 12) (p : Inbound)
  | packetDelivery (p : Packet) (arrivalLink : Fin 24) (upset : Upset)
  | landingAck (p : Packet)
  | peerLost (jobTag : BitVec 16) (coord : BitVec 48) (frame : BitVec 64)
  -- The seal (R317 to R328)
  | vote (link : Fin 24) (m : SealMsg)
  | unitReportTimeout
  | decision (m : SealMsg)
  | sealMissed (m : SealMsg)
  | confirmationTick
  | buddyCopyDone (epoch : Word) (crcOk : Bool)
  | buddyAck (m : SealMsg)
  | buddyDone (link : Fin 24) (m : SealMsg)
  | release (m : SealMsg)
  /-- The granule's key in the sheet directory and the commit the asker holds. -/
  | sheetRestoreRequest (granule : Nat) (commit : Word)
  | sheetRestored (granule : Nat) (data : Option Bytes)
  -- Elastic jobs (R302 to R309)
  | reshapeProposal (jobTag : BitVec 16) (coord : BitVec 48)
  | reshapeWindowEnd
  | insetRetryStart
  | migrationWindowEnd
  -- Survey (R284 to R294)
  | surveyRound
  /-- A side-stream message of type 0x03 (R286). -/
  | legendFragment (link : Fin 24) (msg : BitVec 128)
  | surveySettled
  | surveyTimeout
  -- The Ethernet gateway (R232 to R235)
  | gatewayModule (g : Fin 2) (powerClassDw : Nat)
  | gatewayLinkDown (g : Fin 2)
  | tunnelPacket (g : Fin 2) (tunnel : BitVec 16) (jobTag : BitVec 16) (seq ack : Word) (inner : Option Packet)
  | tunnelResend (g : Fin 2) (tunnel : BitVec 16)
  | rocePacket (g : Fin 2) (qpn : Word) (psn : Word) (op : RoceRequest)
  | gatewayLinkUp (g : Fin 2)
  -- Ends and answers
  | alertCauseEnds (cause : AlertCause)
  | meridianSlewEnd
  | planTranslationDone (slot : Fin 4)
  | resetComplete
  | i3cBlockWrite (offset : Nat) (data : Bytes)
  | neighbourDiscovery (port : EthPort) (target : BitVec 128)
  | dhcpReply (address : BitVec 32)
  deriving DecidableEq, Repr

end Sys2Proof
end

