-- ==== Sys2Proof/Machine/PlanTypes.lean ====
section
/-! DEFINITION. A Hetch plan as the loader holds it: the sections of R131 to R151 and R172, parsed.
The parser is `Sys2Proof/Machine/PlanFile.lean`. -/
namespace Sys2Proof.Machine

/-- A tile descriptor (R134). -/
structure TileDesc where
  base : Nat := 0
  space : Nat := 0
  fmt : Nat := 0
  sfmt : Nat := 0
  block : Nat := 0
  dir : Bool := false
  rows : Nat := 1
  cols : Nat := 1
  stride : Nat := 64
  scaleOff : Nat := 0
  planeStride : Nat := 0
  planes : Nat := 1
  deriving DecidableEq, Repr

/-- A macro-op of a code block: its opcode and its fields (R137). -/
structure RawOp where
  opcode : Nat
  op : MacroOp
  deriving DecidableEq, Repr

/-- A code block: 64 strand entries (none = unused) and the macro-op array (R133). -/
structure CodeBlock where
  strands : List (Option Nat)
  ops : List RawOp
  deriving DecidableEq, Repr

/-- One role: the block each logical core runs, the blocks, and the token entry counts of each block (R133). -/
structure Role where
  cores : List (Option Nat)
  blocks : List CodeBlock
  tokens : List (List Nat)
  deriving DecidableEq, Repr

/-- A circuit entry (R148). -/
structure Circuit where
  id : Nat
  bearing : Nat
  hops : Nat
  units : Nat
  srcCore : Nat
  dstCore : Nat
  mode : Nat
  maxBytes : Nat
  deriving DecidableEq, Repr

/-- A cut entry (R150). -/
structure Cut where
  block : Nat
  strand : Nat
  role : Nat
  frame : Nat
  count : Nat
  deriving DecidableEq, Repr

/-- A slot entry (R150). -/
structure SlotEntry where
  circuit : Nat
  frame : Nat
  start : Nat
  payload : Nat
  deriving DecidableEq, Repr

/-- A contour variant (R150). -/
structure Variant where
  contour : Nat
  frames : Nat
  cuts : List Cut
  slots : List SlotEntry
  /-- EST_UJ: compute, hubs, HBM, links. -/
  est : List Nat
  predNs : Nat
  deriving DecidableEq, Repr

/-- A vector instruction (R141). -/
structure VInstr where
  vop : Nat
  dst : Nat
  a : Nat
  b : Nat
  c : Nat
  imm : Word
  deriving DecidableEq, Repr

/-- An update instruction (R172). -/
structure UInstr where
  uop : Nat
  dst : Nat
  a : Nat
  b : Nat
  c : Nat
  imm : Word
  deriving DecidableEq, Repr

/-- An update program (R172). -/
structure UProg where
  nops : Nat
  kind : Nat
  rnd : Nat
  nacc : Nat
  stream : Nat
  instrs : List UInstr
  deriving DecidableEq, Repr

/-- A plan (R131). -/
structure Plan where
  level : Nat
  scoreboard : Bool
  twin : Bool
  lastPhase : Bool
  numrev : Nat
  roles : Nat
  roleAxis : Nat
  sealFrames : Nat
  vLog2 : Nat
  spmLog2 : Nat
  profile : Nat
  bodyHash : Bytes
  tiles : List TileDesc
  code : List Role
  circuits : List Circuit
  /-- The width manifest: units by bearing; none when the section is absent. -/
  width : Option (List Nat)
  variants : List Variant
  constants : Option Bytes
  updates : List UProg
  vectors : List (List VInstr)
  slack : List Nat
  roleMap : List Nat
  deriving DecidableEq, Repr

end Sys2Proof.Machine
end

