-- ==== Sys2Proof/Machine/Tab.lean ====
section
/-! DEFINITION. Tables: finite maps from natural numbers to values, with a default for every key that is not listed.

A table is a list of (key, value) pairs in ONE canonical form: keys strictly rising, and no entry equal to the default.
Memory, the cores, the hubs, the links and every other numbered part of the machine are tables. -/
namespace Sys2Proof.Machine

/-- A table of values keyed by number. -/
abbrev Table (α : Type) := List (Nat × α)

/-- The value at `k`, or the default `d` where the table lists none. -/
def Tab.get {α : Type} (d : α) (k : Nat) : Table α → α
  | [] => d
  | e :: t => if e.1 = k then e.2 else Tab.get d k t

/-- Put `(k, v)` before the first entry with a greater key. -/
def Tab.place {α : Type} (k : Nat) (v : α) : Table α → Table α
  | [] => [(k, v)]
  | e :: t => if k < e.1 then (k, v) :: e :: t else e :: Tab.place k v t

/-- The table that does not list `k`. -/
def Tab.drop {α : Type} (k : Nat) : Table α → Table α
  | [] => []
  | e :: t => if e.1 = k then Tab.drop k t else e :: Tab.drop k t

/-- The table with `v` at `k`; setting the default removes the entry. -/
def Tab.set {α : Type} [DecidableEq α] (d : α) (k : Nat) (v : α) (t : Table α) : Table α :=
  if v = d then Tab.drop k t else Tab.place k v (Tab.drop k t)

/-- Apply `f` to the value at `k`. -/
def Tab.modify {α : Type} [DecidableEq α] (d : α) (k : Nat) (f : α → α) (t : Table α) : Table α :=
  Tab.set d k (f (Tab.get d k t)) t

/-- Every listed key is above `lo`, the keys rise strictly, and no value is the default. -/
def Tab.wfFrom {α : Type} [DecidableEq α] (d : α) : Option Nat → Table α → Bool
  | _, [] => true
  | lo, e :: t =>
    (match lo with
      | none => true
      | some b => decide (b < e.1)) &&
    decide (e.2 ≠ d) && Tab.wfFrom d (some e.1) t

/-- The canonical form. -/
def Tab.wf {α : Type} [DecidableEq α] (d : α) (t : Table α) : Bool :=
  Tab.wfFrom d none t

/-- Put a run of values at rising keys from `k` on. -/
def Tab.setRun {α : Type} [DecidableEq α] (d : α) (k : Nat) : List α → Table α → Table α
  | [], t => t
  | v :: vs, t => Tab.setRun d (k + 1) vs (Tab.set d k v t)

/-- The run of `n` values from key `k` on. -/
def Tab.getRun {α : Type} (d : α) (k : Nat) : Nat → Table α → List α
  | 0, _ => []
  | n + 1, t => Tab.get d k t :: Tab.getRun d (k + 1) n t

/-- The table with no key from `lo` up to, but not including, `hi`. -/
def Tab.clear {α : Type} (lo hi : Nat) (t : Table α) : Table α :=
  t.filter fun e => decide (e.1 < lo) || decide (hi ≤ e.1)

end Sys2Proof.Machine
end

