-- ==== Sys2Proof/Machine/State.lean ====
section
/-! DEFINITION. The state of the module: everything the manual gives it, as plain data, and its value right after reset.

Times are natural numbers of ns. Registers that software sees as words are bit vectors of their width. Numbered
parts are tables (`Table`) over a default value. -/
namespace Sys2Proof.Machine

/-- Why a step stops: nothing stops one. The manual turns its own faults into events, statuses, resets and the FAULTED state, which
are next states, and a macro-op acts only as the head of a strand of a plan that the loader has verified. -/
inductive Fault where
  deriving DecidableEq, Repr

/-- Why a step has no meaning. -/
inductive Refusal where
  /-- The command has no meaning in the model yet. Safe. -/
  | notModelled (mnemonic : String)
  deriving DecidableEq, Repr

/-! ## Fuses, device, clock -/

/-- What is fused in manufacture (R387, R416, R421, R436, R97, R189). No command changes it. -/
structure Fuses where
  serial : BitVec 128 := 0
  /-- SHA-256 of `publicKey`, read little-endian (R285); the default is that of 64 bytes of zero. -/
  identityFp : BitVec 256 := 0x4bfb5927a93198eae8f0d920233d00439b9709d36eef982730206ad142fda5f5
  publicKey : BitVec 512 := 0
  romVersion : Word := 0
  svnMin : Word := 0
  /-- MAC address of the management port (R436). -/
  mgmtMac : BitVec 48 := 0
  /-- The Icnex firmware key and licence key, x and y (R416). -/
  firmwareKey : Nat × Nat := (0, 0)
  licenceKey : Nat × Nat := (0, 0)
  /-- Physical cores that the fuses disable (R419, R420). -/
  disabled : List Nat := []
  /-- Array records (R97), keyed 4·p + a; the default bypasses the spare row 64 and column 33. -/
  arrays : Table (BitVec 16) := []
  /-- The spare physical channel of stack t, where it is not 31 (R189). -/
  spareChannel : Table Nat := []
  deriving DecidableEq, Repr

/-- Device states with their codes of R389. -/
inductive DevState where
  | off | standby | held | initialising | ready | running | draining | faulted | dumping
  deriving DecidableEq, Repr

/-- What a firmware image's header gives the running firmware (R416). -/
structure Firmware where
  version : Word := 0
  svn : Word := 0
  numrev : Byte := 0
  hetchLevels : Byte := 0
  fabricMin : Byte := 0
  fabricMax : Byte := 0
  mboxVersions : Byte := 0x0C
  measurement : Bytes := []
  deriving DecidableEq, Repr

/-- A defect-map entry (R419): EXCLUDE, then for each array the row and column to bypass, if enabled. -/
structure Defect where
  exclude : Bool := false
  rows : List (Option Nat) := []
  cols : List (Option Nat) := []
  deriving DecidableEq, Repr

/-- The configuration record in force (R417). -/
structure ConfigRecord where
  bytes : Bytes
  configId : Word
  ports : Bool
  defects : Table Defect
  deriving DecidableEq, Repr

/-- A reset level (R370). -/
inductive ResetLevel where
  | core | cluster | partition | module
  deriving DecidableEq, Repr

/-- A reset in progress: its level, its target unit and the uptime by which it completes (R370). -/
structure ResetRun where
  level : ResetLevel
  target : Nat
  due : Nat
  deriving DecidableEq, Repr

structure Device where
  /-- 48 V is present (R21). -/
  vin48 : Bool := true
  /-- The standby domain's regulators are in regulation (R414 step 2). -/
  standbyOn : Bool := false
  /-- The main domain is powered (R21). -/
  mainOn : Bool := false
  state : DevState := .held
  heldCause : Byte := 1
  firmware : Bool := false
  degraded : Bool := false
  stateChanges : Word := 0
  /-- The start-up step in progress (R414). -/
  startStep : Nat := 2
  /-- Uptime in ms of the end of each step so far (R414, START_DONE). -/
  stepEnds : List Nat := [0]
  /-- Step 8 was too slow: only RESET leaves INITIALISING (R414). -/
  slow : Bool := false
  /-- Survey has settled or timed out since step 8 began, and when. -/
  surveyEnd : Option Nat := none
  /-- The input went above 62 V and has not yet stayed below 60 V for 100 ms (R432). -/
  overvolt : Bool := false
  /-- The control dies restart from ROM (R374): mailbox 0 is unavailable. -/
  romRestart : Bool := false
  /-- A trip holds the main domain off until every die reads below 70 °C (R349). -/
  thermalHold : Bool := false
  fw : Firmware := {}
  config : Option ConfigRecord := none
  resets : List ResetRun := []
  deriving DecidableEq, Repr

structure Clock where
  /-- ns since 48 V was applied; never stepped (R354). -/
  uptime : Nat := 0
  /-- The meridian counter (R28). -/
  meridian : Nat := 0
  /-- The part of a ns that slewing has moved the counter beyond `meridian`, in 10⁻⁸ ns. -/
  phase : Int := 0
  /-- The energy counter in µJ (R334). -/
  energy : BitVec 64 := 0
  deriving DecidableEq, Repr

/-! ## Event log and fault windows -/

/-- A log entry (R354). -/
structure Entry where
  event : Word
  seq : Word
  uptime : BitVec 64
  meridian : BitVec 64
  detail : BitVec 64
  deriving DecidableEq, Repr

/-- Events of one key in one uptime millisecond (R356): logged and suppressed. -/
structure Burst where
  key : Word
  ms : Nat
  seen : Nat
  deriving DecidableEq, Repr

structure EventLog where
  /-- The first-fault area, oldest first, at most 64 entries (R355). -/
  first : List Entry := []
  /-- The ring, oldest first, at most 4,032 entries. -/
  ring : List Entry := []
  nextSeq : Word := 1
  bursts : List Burst := []
  /-- LAST_EVENT and LAST_EVENT_SEQ (R388). -/
  lastEvent : Word := 0
  lastSeq : Word := 0
  /-- Integrity-class events of the running attempt (R318 INTEG). -/
  integ : Word := 0
  deriving DecidableEq, Repr

/-- A FAULT_POLICY setting (R368); source 0xFFF is every source. -/
structure Policy where
  code : BitVec 12
  source : BitVec 12
  window : Nat
  threshold : Nat
  deriving DecidableEq, Repr

/-- The counts of a fault key (R367). -/
structure FaultCount where
  code : BitVec 12
  source : BitVec 12
  sub : Nat
  index : Nat
  now : Nat
  before : Nat
  deriving DecidableEq, Repr

structure FaultWindows where
  policies : List Policy := []
  counts : List FaultCount := []
  deriving DecidableEq, Repr

/-! ## Host window, mailboxes, Cofin -/

structure HostRegs where
  eventPending : Byte := 0
  eventIrqEn : Byte := 0
  eventIrqAddr : BitVec 64 := 0
  eventIrqData : Word := 0
  /-- Bytes 0x00 to 0xDF of the step parameter page (R167). -/
  page : Table Byte := []
  lossScale : Word := 0x3F800000
  invLossScale : Word := 0x3F800000
  goodSteps : Word := 0
  skips : Word := 0
  latchedStep : Word := 0xFFFFFFFF
  lastDecision : BitVec 2 := 0
  /-- log2 of the loss scale that the next latch puts into LOSS_SCALE (R184). -/
  scaleLog2 : Int := 0
  /-- The telemetry mirror, bytes by window offset (R391). -/
  mirror : Table Byte := []
  deriving DecidableEq, Repr

/-- A command the module has fetched and not completed (R394, R396). -/
structure InFlightCmd where
  tag : Word
  opcode : BitVec 16
  flags : Byte
  /-- Uptime at which its timeout expires (R372). -/
  deadline : Nat
  /-- Its work has begun (R398). -/
  begun : Bool
  deriving DecidableEq, Repr

/-- A completion entry (R395): DETAIL is 10 bytes, byte 0 lowest. -/
structure Completion where
  tag : Word
  status : BitVec 16
  detail : BitVec 80
  output : Bytes
  buffer : BitVec 64
  noIrq : Bool
  deriving DecidableEq, Repr

/-- A mailbox register block and its rings (R392, R393). -/
structure Mailbox where
  cmdBase : BitVec 64 := 0
  cmpBase : BitVec 64 := 0
  cmpShadow : BitVec 64 := 0
  cmdLog2 : BitVec 4 := 0
  cmpLog2 : BitVec 4 := 0
  version : BitVec 4 := 3
  enable : Bool := false
  irqEn : Bool := false
  cmdTail : Word := 0
  cmdHead : Word := 0
  cmpTail : Word := 0
  cmpHead : Word := 0
  irqAddr : BitVec 64 := 0
  irqData : Word := 0
  irqCount : Byte := 1
  irqDelayUs : BitVec 16 := 0
  ringError : Bool := false
  errorCause : BitVec 4 := 0
  completed : Word := 0
  inFlight : List InFlightCmd := []
  /-- Commands in flight when RESET was written: their completions are dropped (R397). -/
  dropped : List InFlightCmd := []
  /-- Completions held while the Cofin link is down, oldest first (R385). -/
  heldOut : List Completion := []
  /-- Completions without NO_IRQ since the last interrupt (R395). -/
  unsignalled : Nat := 0
  deriving DecidableEq, Repr

structure Cofin where
  up : Bool := false
  gen : BitVec 2 := 0
  /-- The generation the port is trying, once training has begun (R383). -/
  trying : Option CofinGen := none
  gen2Logged : Bool := false
  /-- Interrupts that wait for the link, oldest first (R385). -/
  irqDue : List (BitVec 64 × Word) := []
  deriving DecidableEq, Repr

/-! ## Meridian counter -/

structure Meridian where
  lock : BitVec 2 := 0
  root : Bool := false
  depth : Byte := 0xFF
  upstream : BitVec 24 := 0
  unlocks : Word := 0
  /-- The value MERIDIAN_SET stored and the uptime it was stored at (R30). -/
  stored : Option (Nat × Nat) := none
  /-- A commanded slew: the rate in 0.01 ppm, the uptime it began and its duration in ms (R402); it acts while it lasts. -/
  slew : Option (Int × Nat × Nat) := none
  /-- Consecutive exchanges within ±5 ns, and beyond ±50 ns (R35). -/
  good : Nat := 0
  bad : Nat := 0
  /-- Uptime of the last exchange received from an upstream neighbour. -/
  lastExchange : Nat := 0
  holdoverAt : Option Nat := none
  /-- An unlock still to be acted on at the next tick (R36). -/
  unlockDue : Bool := false
  /-- The counter has been stepped since survey ended or the last unlock (R28, R35). -/
  stepped : Bool := false
  /-- Last measured offset of each link to its far end, in 0.01 ns, with the uptime of its exchange. -/
  offsets : Table (Option (Int × Nat)) := []
  /-- Upstream links heard in the running round of exchanges (R31, R35). -/
  round : List Nat := []
  /-- The learned rate (R35) in 0.01 ppm, and the steering rate in force until an uptime, 1 ms after its exchange. -/
  learned : Int := 0
  trim : Int := 0
  trimEnd : Nat := 0
  /-- T2 and T3 of the last exchange received on each link (R218). -/
  stamps : Table (Int × Int) := []
  named : Bool := false
  rootFp : BitVec 256 := 0
  conflict : Bool := false
  deriving DecidableEq, Repr

/-! ## The job: binding, frames, steps -/

/-- Resolved frame parameters (R39). -/
structure Bind where
  period : Nat
  guardNs : Nat
  baseTick : Nat
  jobTag : BitVec 16
  horizon : Nat
  retries : Nat
  abortSeal : Nat
  hash : BitVec 16
  cartouche : Bool
  deriving DecidableEq, Repr

/-- An accepted plan dispatch (R44). -/
structure Dispatch where
  slot : Nat
  first : Nat
  step : Word
  phaseSeq : BitVec 16
  tag : Word
  /-- The contour fixed at the cut (R46). -/
  contour : Option Nat := none
  /-- The lowest contour a retry may give it (R51), and the vote of the cut alone. -/
  floor : Nat := 0
  voted : Nat := 0
  /-- Its first tick has passed in the running attempt. -/
  begun : Bool := false
  /-- Empty frames inserted before the phase (R47). -/
  shift : Nat := 0
  done : Bool := false
  /-- Body hash, level and profile of its plan, once its phase is over and another plan has taken the slot (R282, R427). -/
  was : Option (Bytes × Nat × Nat) := none
  deriving DecidableEq, Repr

/-- The kinds of seal window (R48, R50). -/
structure SealWindow where
  start : Nat
  frames : Nat
  ofAbort : Bool
  deriving DecidableEq, Repr

/-- The running attempt at a step (R48 to R51). -/
structure Attempt where
  step : Word
  /-- Lowest f_o of the frame-aborts known (R50). -/
  abortFo : Option Nat := none
  /-- The frame-abort has been broadcast by this module (R49). -/
  abortSent : Bool := false
  /-- Issue stops from this frame on (R50). -/
  stopFrom : Option Nat := none
  window : Option SealWindow := none
  contour : Nat := 0
  /-- First frames of the attempt's first phase. -/
  firstFrame : Nat := 0
  lost : List (BitVec 48 × Nat) := []
  /-- An integrity cause for the vote (R317). -/
  integrity : Bool := false
  /-- A frame with an UPDB or UPDS has begun (R324). -/
  updated : Bool := false
  deriving DecidableEq, Repr

/-- The last good frame-boundary message received on a link (R43). -/
structure Neighbour where
  jobTag : BitVec 16 := 0
  abort : Bool := false
  req : Nat := 0
  phaseSeq : Nat := 0
  flood : Nat := 0
  /-- The last FLOOD acted on for each PHASE_SEQ, plus 1; 0 is none (R46). -/
  floods : Table Nat := []
  depth : Byte := 0xFF
  bindHash : BitVec 16 := 0
  frameLo : Word := 0
  /-- Received, and not yet acted on at a deadline. -/
  fresh : Bool := false
  /-- Its differing BIND_HASH has been logged (R39). -/
  splitSeen : Bool := false
  deriving DecidableEq, Repr

/-- A resident plan slot (R160) with the phase learner's energies (R337). -/
structure Resident where
  plan : Plan
  role : Nat
  bytes : Nat
  /-- Headroom frames of each variant (R159). -/
  headroom : List (Nat × List Bool)
  /-- Frame times W_c in array cycles, by variant. -/
  wc : List (Nat × List Nat)
  /-- First code line of strand t of core n: key 64·n + t (R79). -/
  lines : Table Nat
  /-- Code lines in the region of each physical core (R79, R190). -/
  code : Table Nat
  energies : List (Nat × List Nat)
  measured : List (Nat × Nat)
  deriving DecidableEq, Repr

/-- A load in progress: it ends with PLAN_TRANSLATION_DONE (R161). -/
structure Loading where
  resident : Resident
  tag : Word
  mailbox : Nat
  output : Bytes
  buffer : BitVec 64
  deriving DecidableEq, Repr

structure PlanSlot where
  plan : Option Resident := none
  loading : Option Loading := none
  deriving DecidableEq, Repr

/-- An arena (R404): bytes; the base is 0 of its range (log entry 13). -/
structure Arenas where
  spread : Option Nat := none
  near : Table Nat := []
  inset : Option (Nat × Nat) := none
  deriving DecidableEq, Repr

/-- A registered tensor (R405), with the variant slots' counts in `mem`. -/
structure Tensor where
  id : Nat
  fmt : Nat
  states : Nat
  tableRows : Bool
  versioned : Bool
  hub : Nat
  gradFmt : Nat
  gradSpace : Nat
  rows : Nat
  cols : Nat
  gradOff : Nat
  gRows : Nat
  nslots : Nat
  deriving DecidableEq, Repr

structure Job where
  bind : Option Bind := none
  suspended : Bool := false
  /-- A plan of the job has been dispatched (R301). -/
  dispatched : Bool := false
  /-- Job frame index of the frame in progress, its tick, and whether its deadline has passed. -/
  frame : Int := 0
  tickAt : Nat := 0
  open_ : Bool := false
  ticking : Bool := false
  dispatches : List Dispatch := []
  /-- Attempts made at a step that count against RETRIES (R51). -/
  tries : List (Word × Nat) := []
  /-- A neighbour's BIND_HASH differs: frame-abort at the next tick (R39). -/
  splitDue : Bool := false
  /-- The dispatch whose plan runs in the frame in progress. -/
  running : Option Dispatch := none
  attempt : Option Attempt := none
  /-- Step attempts since the job was bound (R247, R314). -/
  attempts : Nat := 0
  contour : Nat := 0
  reqSent : Nat := 0
  /-- The request has fallen since the last contour cut (R340). -/
  fell : Bool := false
  neighbours : Table Neighbour := []
  /-- FLOOD by PHASE_SEQ (R43, R46). -/
  floods : Table Nat := []
  /-- Hang recovery has reached its last step: the binding ends with the seal window it votes in (R373, R390). -/
  hangEnd : Bool := false
  overruns : Word := 0
  slips : Word := 0
  slotLates : Word := 0
  aborts : Word := 0
  overrunSeen : Bool := false
  slots : Table PlanSlot := []
  arenas : Arenas := {}
  tensors : List Tensor := []
  draining : Option Word := none
  /-- The SCOREBOARD_RUN command whose plan runs, by its tag; the plan is in slot 4 (R70, R409). -/
  score : Option Word := none
  /-- Circuit slots of the frame that ended here, delivered (circuit, window). -/
  delivered : List (Nat × Nat) := []
  deriving DecidableEq, Repr

/-! ## Cores -/

/-- Strand states with the codes of R63. -/
inductive StrandState where
  | idle | ready | waitToken | waitUnit | waitCode | waitFence | frameDone | waitRegion | planDone | halted
  deriving DecidableEq, Repr

/-- A strand's generator context (R123, R143). -/
structure GenCtx where
  seed : BitVec 64
  shard : Word
  step : Word
  tag : BitVec 14
  row : Word
  col : Word
  deriving DecidableEq, Repr

/-- The fence that holds a strand (R61). -/
inductive Hold where
  | none | fence | frameEnd
  deriving DecidableEq, Repr

structure Strand where
  pc : Nat := 0
  st : StrandState := .idle
  ctx : Option GenCtx := none
  hold : Hold := .none
  /-- The frame in progress gives it work (R62). -/
  work : Bool := false
  deriving DecidableEq, Repr

/-- Execution units (R56). -/
inductive ExecUnit where
  | mx | vx | mv | nx | hq
  deriving DecidableEq, Repr

/-- Macro-ops that occupy a unit entry (R138). -/
inductive OpKind where
  | load | store | gather | scatter | fill | mma | mmas | vprog | vred | seed
  | send | recv | put | get | cred | turn | upda | updb | upds
  deriving DecidableEq, Repr

/-- A macro-op issued and not completed (R56, R57). -/
structure Flight where
  id : Nat
  strand : Nat
  kind : OpKind
  postQ : Nat
  postN : Nat
  /-- Tile-store regions of its footprint (R69). -/
  regions : List Nat
  /-- Its token is withheld (R95, R197, R360). -/
  withheld : Bool := false
  /-- The hub whose slot it holds (R57). -/
  hub : Option Nat := none
  /-- Bytes still to be acknowledged, received or transmitted. -/
  left : Nat := 0
  msgId : Word := 0
  circuit : Nat := 0
  attempt : Nat := 0
  takenQ : Nat := 0
  takenN : Nat := 0
  /-- The runs of memory keys it writes in its core's tile store: first key and length. -/
  dest : List (Nat × Nat) := []
  /-- Its fields, and for NX the bytes it has read from the tile store and not sent yet. -/
  op : MacroOp := {}
  data : Bytes := []
  /-- Hubs in whose detour queue its requests wait (R200). -/
  detour : List Nat := []
  /-- The two copies of the adder will differ as the slot of a network-form CRED is added (R362). -/
  mismatch : Bool := false
  /-- It has issued and its work has not started: it waits for its unit (R445), for a slot of its hub (R57) or for a stack that serves no
  request (R205). The upset is the one its row carried. -/
  waits : Option Upset := none
  deriving DecidableEq, Repr

/-- One of a core's four arrays (R85, R88, R94): the active and the shadow weight of every physical cell, by row and column, with the check
weights in the column that serves as logical column 32; and its check buffer: for each output row of the macro-op the residue Z, the
non-finite flag, and whether an output of the row is or decodes to a non-finite value. -/
structure MxArray where
  active : List (List Val) := []
  shadow : List (List Val) := []
  residues : List Byte := []
  flags : List Bool := []
  outs : List Bool := []
  deriving DecidableEq, Repr

/-- Field-test state of a logical core (R379). -/
inductive TestState where
  | never | passed | running | failed | retired
  deriving DecidableEq, Repr

structure TestRec where
  /-- Uptime at which the last passing test started. -/
  lastPass : Nat := 0
  state : TestState := .never
  fails : Byte := 0
  /-- Uptime at which the running test started. -/
  started : Nat := 0
  /-- A test is forced in the core's next frame without work (R345, R409). -/
  forced : Bool := false
  /-- FIELD_TEST commands that wait for its result. -/
  tags : List Word := []
  /-- FIELD_TEST_LATE is logged for the running 32 s. -/
  late : Bool := false
  /-- A failed test awaits its rerun (R365). -/
  rerun : Bool := false
  /-- The test decides a lasting TWIN_MISMATCH of the core's pair (R369). -/
  trial : Bool := false
  deriving DecidableEq, Repr

structure Core where
  logical : Byte := 0xFF
  retired : Bool := false
  queues : Table Nat := []
  /-- Entry counts of the queues in the running plan (R67). -/
  entry : Table Nat := []
  strands : Table Strand := []
  flights : List Flight := []
  nextId : Nat := 0
  nextMsg : Word := 0
  rot : Nat := 0
  /-- Issue is stopped on every strand for the rest of the frame. -/
  stopped : Bool := false
  /-- An earlier MX macro-op mismatched: later ones end without effect (R95). -/
  mxDead : Bool := false
  scoreboard : Bool := false
  saved : Option (Table Nat × Table Strand) := none
  /-- Instruction-cache lines held, most recently used first (R80). -/
  lines : List Nat := []
  refills : List Nat := []
  /-- Lines that wait for a refill slot, oldest first, and whether each is a preload (R81, R82). -/
  wanted : List (Nat × Bool) := []
  /-- Refills that are preloads, and the lines used in the frame in progress (R82). -/
  preloads : List Nat := []
  used : List Nat := []
  overflow : Bool := false
  saturations : Word := 0
  holds : Word := 0
  issued : Word := 0
  /-- Descriptors replayed in another format (R185). -/
  overrides : List (Nat × Nat) := []
  test : TestRec := {}
  /-- A core reset is in progress (R370). -/
  inReset : Bool := false
  sunkLogged : Bool := false
  /-- The matrix arrays 0 to 3 (R85). -/
  arrays : Table MxArray := []
  /-- The frame in progress gives it work (R62); such work ended at or after the frame's deadline (R53). -/
  worked : Bool := false
  late : Bool := false
  /-- A reset has taken what the running attempt needs of it (R187, R370). -/
  broken : Bool := false
  /-- The queues as they stood at the deadline, where a post has landed since (R68). -/
  closing : Option (Table Nat) := none
  deriving DecidableEq, Repr

/-! ## Hubs and HBM -/

/-- A request that waits in the detour queue of a hub for channel `chan` (R200, R202): its address, and the data of a write; a read has
none. -/
structure Detour where
  chan : Nat
  addr : Nat
  data : Bytes
  deriving DecidableEq, Repr

/-- A spare-channel repair (R202). -/
structure Repair where
  chan : Nat
  /-- Uptime at which its copy started; the copy pointer follows from it. -/
  started : Nat := 0
  /-- Copied as all poisoned, without reads (R203). -/
  blind : Bool
  /-- Blocks of a readable channel written whole to the spare since the copy passed their rows. -/
  written : List Nat := []
  deriving DecidableEq, Repr

/-- What waits at a hub for one of its 128 slots (R57): the entry of a core's macro-op, or a packet with the link it came on and the upset
of its row. -/
inductive HubWait where
  | entry (core id : Nat)
  | packet (p : Packet) (link : Nat) (u : Upset)
  deriving DecidableEq, Repr

structure Hub where
  /-- A, C and REL as full counts (R314), and ROLLBACK. -/
  attempt : Nat := 0
  commit : Nat := 0
  prevCommit : Nat := 0
  released : Nat := 0
  rollback : Bool := false
  sweeping : Bool := false
  overflow : Bool := false
  saturations : Word := 0
  updateOps : Word := 0
  atomics : Word := 0
  /-- TURN requests in the order they reached the hub (R212): core and entry. -/
  turnQueue : List (Nat × Nat) := []
  slots : Nat := 0
  waiting : List HubWait := []
  /-- Messages of the frame whose atomics have logged FORMAT_SATURATE: source rank, source core, MSG_ID (R118). -/
  saturated : List (Nat × Nat × Word) := []
  detour : List Detour := []
  /-- Requests that found no room in the detour queue: their units keep them until it drains (R200). -/
  turnedAway : Nat := 0
  retraining : Option Nat := none
  retries : Nat := 0
  /-- Due channels with the uptime they became due, longest first (R199). -/
  due : List (Nat × Nat) := []
  overdue : List Nat := []
  repair : Option Repair := none
  repairQueue : List Repair := []
  /-- Uptime and stack temperature of each hub channel's last training after step 6 (R199). -/
  trained : Table (Option (Nat × Int)) := []
  /-- Channels failed under R201, whose data are unreadable, with the blocks written whole since (R203). -/
  blind : List (Nat × List Nat) := []
  deriving DecidableEq, Repr

/-- Thermal levels of R205 and R348. -/
inductive Heat where
  | normal | warm | hot | critical
  deriving DecidableEq, Repr

/-- What a warm unit's last cooling was judged from (R340). -/
structure Warmth where
  level : Heat := .normal
  temp : Int := 0
  /-- Uptime and temperature from which the next 10 ms is counted. -/
  since : Nat := 0
  low : Int := 0
  deriving DecidableEq, Repr

structure Stack where
  heat : Warmth := {}
  spareUsed : Bool := false
  /-- Start-up training found the spare itself failed. -/
  spareBad : Bool := false
  replaced : BitVec 5 := 0x1F
  corrected : Word := 0
  uncorrected : Word := 0
  retrains : Word := 0
  detourPeak : BitVec 24 := 0
  /-- Uptime and temperature of the training of start-up step 6; no temperature while the stack has reported none. -/
  trained : Nat × Option Int := (0, none)
  /-- Refresh doubled (warm), grants halved (hot), no access (critical) follow from `heat`. -/
  stopped : Bool := false
  deriving DecidableEq, Repr

/-- A sheet-directory entry (R314). -/
structure DirEntry where
  cur : Bool := false
  prv : Bool := false
  frs : Bool := false
  epoch : BitVec 24 := 0
  deriving DecidableEq, Repr

/-! ## Links, ports, router, gateway -/

/-- Link states with the codes of R226. -/
inductive LinkState where
  | disabled | dark | training | up | down
  deriving DecidableEq, Repr

/-- What a link's transmitter sends: a packet, with the bearing it came by, or a slot with its transmit start in 0.01 ns of meridian time. -/
inductive LinkItem where
  | packet (p : Packet) (from_ : Option Nat)
  | slot (start : Nat) (x : Slot)
  /-- The share of a slot that takes several links. -/
  | share (start : Nat)
  deriving DecidableEq, Repr

/-- A group of new data not sent yet (R219): its bytes, and what it is a part of; `first` and `last` mark the item's ends. -/
structure TxGroup where
  data : Bytes
  item : LinkItem
  first : Bool
  last : Bool
  deriving DecidableEq, Repr

/-- A group held in the retry buffer (R219): its SEQ, its bytes, the SIDE bits of each trained lane, which are resent with it (R218), and how
often it was resent. -/
structure HeldGroup where
  seq : Byte
  resent : Nat
  data : Bytes := []
  side : List Nat := []
  deriving DecidableEq, Repr

structure Link where
  state : LinkState := .disabled
  wide : Bool := false
  pairB : Bool := false
  lanesOk : BitVec 4 := 0
  port : BitVec 4 := 0xF
  uncorrectable : Word := 0
  retries : Word := 0
  berWorst : Word := 0
  delay : BitVec 16 := 0
  retrains : BitVec 16 := 0
  /-- Circuit slot slips on this link (R45). -/
  slips : Word := 0
  /-- Next SEQ to send, last SEQ received in order, NAK being sent (R216, R219). -/
  txSeq : Byte := 1
  rxSeq : Byte := 0
  nak : Bool := false
  held : List HeldGroup := []
  /-- New data that waits for the link or for room in its retry buffer. -/
  unsent : List TxGroup := []
  /-- Meridian time, in 0.01 ns, at which the transmitter has sent all it was given (R240, R253). -/
  busyUntil : Nat := 0
  /-- Meridian time, in 0.01 ns, at which the trailing guard of the last slot sent here ends (R240). -/
  guardUntil : Nat := 0
  /-- RESUME still to be honoured (R225). -/
  resume : Option Byte := none
  /-- The far end's lanes from its width agreement (R223). -/
  farLanes : Option (BitVec 4) := none
  inService : Bool := false
  /-- Uptime at which its last training began. -/
  triedAt : Nat := 0
  /-- Held DOWN by a lasting fault (R369). -/
  lastingDown : Bool := false
  quiesced : Bool := false
  tooLong : Bool := false
  /-- Legend fragments received so far (R286), then the last complete legend and its verdict. -/
  partial_ : Bytes := []
  nextFragment : Nat := 0
  legend : Option Bytes := none
  /-- The last legend received on the link, which LEGEND_FETCH copies even after the link went down (R295). -/
  lastLegend : Option Bytes := none
  /-- The content of the last legend sent on the link since it came up; empty with none (R289). -/
  legendSent : Bytes := []
  /-- The result of check 1 on that legend, once a round has verified it (R291). -/
  verified : Option Bool := none
  verdict : Nat := 0
  cause : Nat := 0
  fwLogged : Bool := false
  /-- Side messages that wait (R218), and the one being sent with its start in 0.1 ns of UPTIME. -/
  sideQueue : List (BitVec 128) := []
  sideNow : Option (BitVec 128 × Nat) := none
  badSide : Nat := 0
  deriving DecidableEq, Repr

/-- Port states with the codes of R229. -/
inductive PortState where
  | unconfigured | down | narrow | full | held | surveyOnly
  deriving DecidableEq, Repr

structure Port where
  state : PortState := .unconfigured
  /-- Bearing in force (configured or re-derived, R294). 0xF = none. -/
  bearing : BitVec 4 := 0xF
  /-- The bearing of the port map. -/
  cfgBearing : BitVec 4 := 0xF
  links : BitVec 24 := 0
  minUnits : Nat := 0
  bonded : BitVec 24 := 0
  level : Byte := 0
  quiesced : Bool := false
  farPort : Nat := 0xFF
  deriving DecidableEq, Repr

/-- A packet staged at a router output: whether it enters a ring there, whether it asks for an adaptive buffer downstream, the bearing it came
by (none: a network interface here), the input buffer it holds (port, adaptive pool), and its entry in the replication buffer. -/
structure Staged where
  packet : Packet
  entering : Bool
  adaptive : Bool
  from_ : Option Nat := none
  buffer : Option (Nat × Bool) := none
  copy : Option Nat := none
  /-- FORWARDED has counted it. -/
  counted : Bool := false
  deriving DecidableEq, Repr

/-- A router port: downstream credits, the counters and staged packets of its output, and the used buffers of its input (R252, R257, R264). -/
structure OutPort where
  /-- Free escape buffers downstream, VC0 to VC3; free adaptive buffers, VC0 and VC1. -/
  esc : List Nat := [0, 0, 0, 0]
  adp : List Nat := [0, 0]
  /-- Used buffers of its own input's pools. -/
  escUsed : List Nat := [0, 0, 0, 0]
  adpUsed : List Nat := [0, 0]
  staged : List Staged := []
  txPackets : Word := 0
  creditStalls : Word := 0
  spanIdle : Word := 0
  /-- Packets of higher classes sent in a row while a class waited (R262). -/
  starved : List Nat := [0, 0, 0, 0]
  /-- The requester last granted in each virtual channel's class (R261). -/
  granted : List Nat := [0, 0, 0, 0]
  deriving DecidableEq, Repr

/-- A broadcast in the replication buffer (R256): its entry and the copies that have not left. -/
structure Replica where
  id : Nat
  left : Nat
  deriving DecidableEq, Repr

/-- A message being received at a destination (R246). -/
structure Message where
  /-- Compute die of the network interface. -/
  die : Nat
  srcRank : Nat
  srcCore : Nat
  msgId : Word
  got : Nat
  total : Nat
  deriving DecidableEq, Repr

/-- A slot held in a link's slot buffer: in transit, with its outgoing links and transmit start in 0.01 ns, or waiting for its RECV
or CRED (R243, R244). -/
structure HeldSlot where
  link : Nat
  slot : Slot
  forward : Option (List Nat × Nat) := none
  deriving DecidableEq, Repr

/-- A mailbox 2 transfer with another module: its mailbox entry, the bytes still to be acknowledged or received, and for a READ
the data received (R404, R239). -/
structure Transfer where
  tag : Word
  msgId : Word
  read : Bool
  left : Nat
  data : Bytes := []
  buffer : BitVec 64 := 0
  deriving DecidableEq, Repr

/-- A read of HBM that waits until the detour queues of some hubs have drained (R200): a READ of mailbox 2, a packet with its arrival link and the
upset of its row, or a RoCEv2 READ of a gateway port. -/
inductive Parked where
  | read (hubs : List Nat) (c : Cmd) (addr : MemAddr) (buddy : Bool) (upset : Upset)
  | packet (hubs : List Nat) (p : Packet) (link : Nat) (upset : Upset)
  | roce (hubs : List Nat) (gw : Nat) (qpn psn : Word) (op : RoceOp)
  deriving DecidableEq, Repr

structure Router where
  forwarded : Word := 0
  injected : Word := 0
  ejected : Word := 0
  bubbleWaits : Word := 0
  reversals : Word := 0
  pathsLost : Word := 0
  stale : Word := 0
  sunk : Word := 0
  unmapped : Word := 0
  hcrcErrors : Word := 0
  slotSunk : Word := 0
  out : Table OutPort := []
  /-- The replication buffer, the next entry's number, and broadcasts that wait in their input buffers for a free one: bearing and buffer they
  came by (R256). -/
  copies : List Replica := []
  nextCopy : Nat := 0
  copyWait : List (Option Nat × Option (Nat × Bool) × Packet) := []
  /-- Lowest f_o forwarded per (job tag, ATTEMPT) (R256). -/
  aborts : List (Nat × Nat × Nat) := []
  messages : List Message := []
  /-- Transit and received slots in the links' slot buffers (R243, R244). -/
  slotBuf : List HeldSlot := []
  /-- Mailbox 2 transfers with other modules, and the control dies' next MSG_ID. -/
  transfers : List Transfer := []
  nextMsg : Word := 0
  /-- Reads that wait in detour queues, oldest first (R200). -/
  parked : List Parked := []
  deriving DecidableEq, Repr

/-- A tunnel (R235). -/
structure Tunnel where
  index : Nat
  remote : BitVec 128
  remotePort : BitVec 16
  jobTag : BitVec 16
  mtu : Nat
  txSeq : Word := 0
  rxNext : Word := 0
  unacked : List (Word × Packet) := []
  /-- Packets that wait while 256 are unacknowledged. -/
  waiting : List Packet := []
  /-- The module's own mailbox 2 transfers that went into the tunnel. -/
  carried : List Word := []
  /-- Resends without progress, the uptime of the last progress or resend, and whether the tunnel has failed. -/
  stuck : Nat := 0
  since : Nat := 0
  failed : Bool := false
  deriving DecidableEq, Repr

/-- A queue pair (R233, R404). -/
structure Qp where
  qpn : Word
  remoteQpn : Word
  gid : Byte
  mtu : Nat
  sendPsn : Word
  recvPsn : Word
  remote : BitVec 128
  remoteGid : BitVec 96
  ready : Bool
  received : List Bytes := []
  /-- Congestion notifications received. -/
  cnps : Word := 0
  deriving DecidableEq, Repr

structure Gateway where
  /-- 0 no transceiver, 1 link down, 2 link up, 3 disabled (R236). -/
  state : BitVec 2 := 0
  powerClass : Byte := 0
  lowPower : Bool := false
  ipv6 : Bool := false
  vlan : BitVec 16 := 0
  udpPort : BitVec 16 := 19540
  plen : Byte := 0
  pfc : Byte := 0
  address : BitVec 128 := 0
  /-- The 16 GID entries, an unset one 0. -/
  gids : List (BitVec 128) := List.replicate 16 0
  tunnels : List Tunnel := []
  qps : List Qp := []
  nextQpn : Word := 1
  txBytes : BitVec 64 := 0
  rxBytes : BitVec 64 := 0
  fecUncorrected : Word := 0
  deriving DecidableEq, Repr

/-! ## Survey and topology -/

/-- A link entry of the wiring sheet (R287). -/
structure SheetLink where
  farLink : Nat := 0xFF
  farPort : Nat := 0xFF
  farCoord : BitVec 48 := 0
  checks : Byte := 0
  farFp : BitVec 256 := 0
  deriving DecidableEq, Repr

structure WiringSheet where
  id : Word := 0
  flags : Byte := 0
  ringM1 : BitVec 48 := 0
  line : Byte := 0
  selfCoord : BitVec 48 := 0
  selfFp : BitVec 256 := 0
  links : List SheetLink := []
  deriving DecidableEq, Repr

structure Survey where
  /-- 0 never run, 1 running, 2 settled, 3 timed out (R297). -/
  state : BitVec 2 := 0
  began : Nat := 0
  /-- Uptime of the last changed legend sent or received. -/
  lastChange : Nat := 0
  round : Nat := 0
  sheet : WiringSheet := {}
  /-- PROFILE and AUTO_ORIENT of the port map (R227). -/
  profile : Byte := 0
  autoOrient : Bool := false
  coord : Option (BitVec 48) := none
  derived : Bool := false
  reoriented : Bool := false
  surveys : Word := 0
  legendsBad : Word := 0
  seq : Word := 0
  /-- The content last sent, by which a round knows whether it changed (R289). -/
  sent : Bytes := []
  mismatchLogged : List Nat := []
  deriving DecidableEq, Repr

/-- A gazetteer (R248): entry r is the coordinate of rank r, or none. -/
structure Gazetteer where
  jobSize : Nat
  selfRank : Nat
  ringM1 : BitVec 48
  line : BitVec 6
  selfCoord : BitVec 48
  jobTag : BitVec 16
  epoch : Word
  entries : List (Option (BitVec 48))
  deriving DecidableEq, Repr

/-- One axis of a shard chart's box (R298). -/
structure ChartAxis where
  origin : Nat := 0
  spanLog2 : Nat := 0
  fixedMask : Byte := 0
  fixedValue : Byte := 0
  deriving DecidableEq, Repr

/-- A shard chart (R298), or the rank chart of R401. -/
structure Chart where
  bytes : Bytes := []
  epoch : Word
  jobTag : BitVec 16
  vLog2 : Nat
  spmLog2 : Nat
  group : Nat := 1
  stageAxis : Nat := 1
  stages : Nat := 1
  inset : Nat := 0
  axes : List ChartAxis := []
  ladder : List (Nat × Nat) := []
  /-- Rank chart: every module hosts the shard of its rank (R401). -/
  rank : Bool := false
  /-- The gazetteer's entries when a rank chart was installed (R401). -/
  ranks : List (Option (BitVec 48)) := []
  /-- After an inset switch, the offset from v0 of each local shard slot's shard; empty is the slot itself (R308). -/
  slots : List Nat := []
  deriving DecidableEq, Repr

/-- An accepted RESHAPE (R302). -/
structure Reshape where
  tag : Word
  chart : Chart
  gaz : Gazetteer
  afterStep : Word
  frames : Nat
  /-- Frame at which the migration window opened. -/
  opened : Option Nat := none
  deriving DecidableEq, Repr

/-- A staged inset (R306). -/
structure Inset where
  k : Nat
  switchFrames : Nat
  gaz : Gazetteer
  chart : Chart
  files : List Bytes
  plans : List Plan
  deriving DecidableEq, Repr

structure Topo where
  gaz : Option Gazetteer := none
  nextGaz : Option Gazetteer := none
  chart : Option Chart := none
  reshape : Option Reshape := none
  insets : List Inset := []
  /-- The reshape window after a loss (R307): W0's frame index. -/
  window : Option Nat := none
  /-- Frame at which the retry begins after an inset switch (R308). -/
  switchAt : Option Nat := none
  notices : List (BitVec 48 × Nat) := []
  proposals : List (BitVec 48) := []
  lostFirst : BitVec 48 := 0
  lostCount : Byte := 0
  /-- The running migration: granules still to send (destination, own directory key), and granules received, whose key names the
  virtual shard in place of the slot (R303). -/
  migOut : List (BitVec 48 × Nat) := []
  migIn : List Nat := []
  /-- The layout changed since the last RELEASE (R309, R322). -/
  fresh : Bool := true
  /-- An inset switch took place in this binding (R309). -/
  switched : Bool := false
  /-- The step that is retried in the new layout (R308). -/
  switchStep : Option Word := none
  deriving DecidableEq, Repr

/-! ## The seal -/

/-- A commit, as its cartouche and its rollback need it (R327, R427). -/
structure Commit where
  step : Word
  epoch : Nat
  /-- Frame whose tick ended the seal window. -/
  frame : Nat
  seed : BitVec 64
  programs : List Bytes
  level : Nat
  profile : Nat
  /-- RO fields of the step block at that commit: LOSS_SCALE, INV_LOSS_SCALE, GOOD_STEPS, SKIPS. -/
  fields : Word × Word × Word × Word
  latched : Word := 0xFFFFFFFF
  /-- log2 of the loss scale after the commit (R184). -/
  log2 : Int := 0
  tags : List Word
  skipped : Bool := false
  reshaped : Bool := false
  deriving DecidableEq, Repr

/-- The vote being combined (R317, R319). -/
structure VoteState where
  abort : Bool
  cause : BitVec 16
  count : Nat
  integ : Word
  granules : Nat
  step : Word
  epoch : Nat
  /-- Ports of the children still to be heard. -/
  waiting : List Nat
  /-- A unit has not reported yet (R317). -/
  unitsOpen : Bool
  sent : Bool
  /-- Meridian time of the window's first tick. -/
  at_ : Nat
  deriving DecidableEq, Repr

structure Seal where
  vote : Option VoteState := none
  /-- The decision held for the tick that ends the window: ABORT?, cause (R320). -/
  decision : Option (Bool × BitVec 16) := none
  commits : List Commit := []
  /-- Commits and skips whose dispatches complete at the frame given (R321). -/
  confirming : List (Nat × Commit) := []
  confirmed : Option Nat := none
  /-- BUDDY_DONE reports combined: count and ports heard (R323). -/
  doneCount : Nat := 0
  doneWaiting : List Nat := []
  ownDone : Bool := false
  doneSent : Bool := false
  /-- The outgoing copy: its commit and the granules still to send; then the copy that waits for it (R322, R331). -/
  copyOut : Option (Nat × List Nat) := none
  copyQueued : Option (Nat × List Nat) := none
  /-- Granules of the outgoing copy already sent. -/
  copySent : Nat := 0
  /-- The incoming copy: its commit and the granules received. -/
  copyIn : Option (Nat × List Nat) := none
  buddyEpoch : Nat := 0
  buddyPrev : Nat := 0
  /-- Granules of the whole incoming copy, as its slots state them. -/
  copyInTotal : Nat := 0
  /-- The incoming copy for which BUDDY_RESEND was logged (R325). -/
  resendFor : Option Nat := none
  lastCause : BitVec 16 := 0
  sealNs : Word := 0
  commitsCount : Word := 0
  abortsCount : Word := 0
  rollbacks : Word := 0
  restores : Word := 0
  commitStep : Word := 0
  /-- Granules written fresh in the running attempt (directory keys). -/
  granules : List Nat := []
  /-- Granules flipped by the last commit. -/
  flipped : List Nat := []
  /-- A poisoned granule asked from the buddy (R328). -/
  asked : List Nat := []
  /-- Granules that the next copy sends even if unchanged, since the buddy's were poisoned (R328). -/
  again : List Nat := []
  deriving DecidableEq, Repr

/-! ## Power -/

structure Power where
  capW : Nat := 4800
  /-- Uptime at which CAP_W last changed (R351). -/
  capAt : Nat := 0
  fallbackEn : Bool := true
  hystPct : Nat := 3
  floorHoldUs : Nat := 1000
  /-- Settings accepted while a job is bound, applied at the next deadline (R335). -/
  next : Option (Nat × Bool × Nat × Nat) := none
  /-- The contour of the array clock in use (R342); the floor does not change it. -/
  localContour : Nat := 0
  floor : Bool := false
  /-- The contour of the array clock at the tick of the frame in progress (R337). -/
  frameClock : Nat := 0
  /-- The compute rails' voltage in mV (R23, R333, R47). -/
  cmpVolts : Nat := 800
  causes : List AlertCause := []
  holdEnd : Option Nat := none
  holdDone : Bool := false
  /-- The raise of R336 for the rest of the binding. -/
  raise : Nat := 0
  capUnmet : Bool := false
  unmetDue : Bool := false
  thermal : Nat := 0
  /-- Uptime of the last rise of T (R340). -/
  thermalAt : Nat := 0
  fallback : Bool := false
  fallbackBarred : Bool := false
  /-- Contour cuts in a row at which N > 0 equalled the decision, and at which N was 0 (R341). -/
  needHits : Nat := 0
  needZeros : Nat := 0
  nPow : Nat := 0
  dies : Table Warmth := []
  contourChanges : Word := 0
  alerts : Word := 0
  framesAt : List Word := [0, 0, 0, 0]
  framesFloor : Word := 0
  deferred : Word := 0
  /-- The background tasks of R344, by their order, that the frame in progress is cleared for. -/
  cleared : List Nat := []
  /-- The frame's field test has been taken (R344). -/
  testSpent : Bool := false
  /-- Other background work has run in the frame in progress (R337). -/
  background : Bool := false
  deriving DecidableEq, Repr

/-! ## Integrity, dump, security -/

structure Integrity where
  lasting : BitVec 16 := 0
  twinCores : Byte := 0
  twinBarred : List Nat := []
  /-- Every commit since start-up, newest first: uptime and step (R365). -/
  commits : List (Nat × Word) := []
  /-- The logical core whose turn in the test rotation is next (R364). -/
  testTurn : Nat := 0
  suspectFirst : Word := 0
  suspectLast : Word := 0
  passed : Word := 0
  failed : Word := 0
  arrayChecks : Word := 0
  parityErrors : Word := 0
  payloadCrcs : Word := 0
  hangRecoveries : Word := 0
  deriving DecidableEq, Repr

/-- What started a dump (R376). -/
inductive DumpTrigger where
  | hang | faulted | command
  deriving DecidableEq, Repr

/-- A dump: capturing or held (R375 to R377). -/
structure DumpRec where
  trigger : DumpTrigger
  seq : Word
  summaryOnly : Bool
  unreachable : List (BitVec 12) := []
  partial_ : Bool := false
  /-- Uptime at which the capture ended. -/
  ended : Nat := 0
  /-- Physical cores whose tile stores the full dump holds. -/
  tiles : List Nat := []
  uptime : Nat
  meridian : Nat
  state : DevState
  jobTag : BitVec 16 := 0
  step : Word := 0
  epoch : Nat := 0
  deriving DecidableEq, Repr

structure Dump where
  running : Option DumpRec := none
  held : Option DumpRec := none
  region : Option Nat := none
  /-- State to return to when the dump ends. -/
  back : DevState := .ready
  tag : Option (Word) := none
  /-- The reset requests held during DUMPING, oldest first (R380): level, target, cause. -/
  pendingResets : List (ResetLevel × Nat × Nat) := []
  /-- A module reset passes through DUMPING with a held dump (R377): HELD cause. -/
  moduleHold : Option Byte := none
  skipped : Bool := false
  /-- The held dump has been fetched: STANDBY and WAKE no longer wait for it (R412). -/
  fetched : Bool := false
  /-- A hang recovery is under way (R373). -/
  hang : Bool := false
  /-- The HANG_RECOVERY event was lasting: the recovery ends in FAULTED (R369). -/
  hangLasting : Bool := false
  deriving DecidableEq, Repr

/-- A CARTOUCHE_FETCH that waits for the RELEASE of its commit (R428). -/
structure CartoucheWait where
  cmd : Cmd
  step : Word
  manifest : Bytes
  deriving DecidableEq, Repr

structure Security where
  /-- Licence records by KIND 1 to 4 (R423). -/
  licences : Table Bytes := []
  /-- Granule digests: last commit's and the one before it, by directory key (R425). -/
  digests : Table Bytes := []
  prevDigests : Table Bytes := []
  /-- CARTOUCHE_FETCH commands that wait for RELEASE (R428). -/
  waiting : List CartoucheWait := []
  signed : Nat := 0
  deriving DecidableEq, Repr

/-! ## Management interfaces -/

/-- The management settings 0x10 to 0x4F of the I3C block (R438). -/
structure MgmtSettings where
  mode : BitVec 2 := 0
  plen : Byte := 0
  vlan : BitVec 12 := 0
  collectorPort : BitVec 16 := 0
  logPort : BitVec 16 := 0
  address : BitVec 128 := 0
  gateway : BitVec 128 := 0
  collector : BitVec 128 := 0
  deriving DecidableEq, Repr

structure Mgmt where
  ibiEn : Byte := 0
  pending : MgmtSettings := {}
  applied : MgmtSettings := {}
  dynAddr : Option (BitVec 7) := none
  dhcp : Option (BitVec 32) := none
  page : Byte := 0
  cml : Bool := false
  /-- The JTAG instruction selected: 0 BYPASS, 1 IDCODE, 2 SAMPLE/PRELOAD, 3 EXTEST. -/
  jtag : BitVec 2 := 1
  cells : Word := 0
  capture : Word := 0
  tlr : Bool := true
  /-- Log requests answered in the running second of uptime (R437). -/
  second : Nat := 0
  answered : Nat := 0
  /-- Pins the module drives low. -/
  vrAlert : Bool := false
  thermTrip : Bool := false
  deriving DecidableEq, Repr

/-! ## What the module sends out -/

/-- A UDP datagram in an Ethernet frame of a gateway port: its VLAN tag, 0 for none, its addresses, its ports and its data (R232, R234). -/
structure Datagram where
  vlan : BitVec 16 := 0
  ipv6 : Bool := false
  source : BitVec 128 := 0
  dest : BitVec 128 := 0
  sourcePort : BitVec 16 := 0
  destPort : BitVec 16 := 0
  data : Bytes := []
  deriving DecidableEq, Repr

/-- What a RoCEv2 packet of the module is: an acknowledgement, a packet of a READ's data, or a congestion notification (R233). -/
inductive RoceKind where
  | ack | readResponse | cnp
  deriving DecidableEq, Repr

/-- A RoCEv2 packet of the module (R233). Its ECN field marks it as ECN capable. -/
structure RoceFrame where
  kind : RoceKind
  ecn : BitVec 2 := 2
  vlan : BitVec 16 := 0
  ipv6 : Bool := false
  sourceGid : BitVec 128 := 0
  dest : BitVec 128 := 0
  destGid : BitVec 96 := 0
  qpn : Word := 0
  psn : Word := 0
  data : Bytes := []
  deriving DecidableEq, Repr

/-- One thing the module emitted (log entry 9). -/
inductive Emission where
  /-- Bytes written to host memory (R384). -/
  | hostWrite (addr : BitVec 64) (data : Bytes)
  /-- The 16-byte completion entry written to the ring of mailbox `m` (R395). -/
  | completion (m : Nat) (addr : BitVec 64) (tag : Word) (status : BitVec 16) (detail : BitVec 80)
  | interrupt (addr : BitVec 64) (data : Word)
  /-- A log entry's datagram: the collector's address and port, and the port it leaves from (R357, R436). -/
  | datagram (dest : BitVec 128) (port source : BitVec 16) (e : Entry)
  | mgmtReply (data : Bytes)
  | echoReply (port : EthPort) (payload : Bytes)
  | neighbourReply (port : EthPort) (target : BitVec 128)
  | ibi (c : Nat)
  | side (link : Nat) (msg : BitVec 128)
  | legend (link : Nat) (data : Bytes)
  /-- A packet sent on a link (R253). -/
  | packet (link : Nat) (p : Packet)
  | inject (p : Packet)
  | broadcast (kind : Nat) (m : SealMsg)
  | frameAbort (jobTag : BitVec 16) (step : Word) (attempt : Byte) (fo : Nat)
  | peerLost (jobTag : BitVec 16) (coord : BitVec 48) (frame : Nat)
  | proposal (jobTag : BitVec 16) (coord : BitVec 48)
  | sealUp (port : Nat) (kind : Nat) (m : SealMsg)
  /-- A slot sent on a link, with its transmit start in 0.01 ns of meridian time (R240). -/
  | slot (link : Nat) (start : Nat) (s : Slot)
  /-- A codeword group sent on a link: the link field and the 640 data bytes of each trained lane (R216, R217). -/
  | group (link : Nat) (codewords : List (BitVec 20 × Bytes))
  /-- A credit flit sent on a port: the free buffers of its input's escape and adaptive pools (R257). -/
  | credit (port : Nat) (esc adp : List Nat)
  | sheetReply (granule : Nat) (data : Option Bytes)
  | sheetAsk (granule : Nat) (commit : Nat)
  /-- An encapsulated packet sent by a gateway port (R234). -/
  | tunnel (g : Nat) (d : Datagram)
  /-- A RoCEv2 packet sent by a gateway port to a queue pair (R233). -/
  | roce (g : Nat) (d : RoceFrame)
  | smbus (data : Nat)
  | smbusNack
  | jtagOut (bits : Word)
  | pins (bits : Word)
  deriving DecidableEq, Repr

/-! ## State -/

/-- The state of the module. -/
structure State where
  fuses : Fuses := {}
  dev : Device := {}
  clock : Clock := {}
  mer : Meridian := {}
  log : EventLog := {}
  faults : FaultWindows := {}
  regs : HostRegs := {}
  mboxes : Table Mailbox := []
  cofin : Cofin := {}
  job : Job := {}
  sealSt : Seal := {}
  /-- Physical cores 0 to 127. -/
  cores : Table Core := []
  /-- The logical-to-physical map: entry n is the physical core of logical core n (R16). -/
  coreMap : List Nat := []
  /-- Array repairs in force (R419): records keyed 4·p + a, where they differ from the fuses. -/
  repairs : Table (BitVec 16) := []
  hubs : Table Hub := []
  hbmStacks : Table Stack := []
  /-- Every byte of HBM, hub caches, tile stores and sheet areas (regions of `Sys2Proof/Machine/Memory.lean`). -/
  mem : List Host.Cell := []
  /-- Poisoned 64-byte blocks by number, as a table (R197). -/
  poison : Table Bool := []
  dir : Table DirEntry := []
  /-- The spread/near boundary R_S (R190). -/
  rowSplit : Nat := 262144
  links : Table Link := []
  ports : Table Port := []
  router : Router := {}
  gws : Table Gateway := []
  survey : Survey := {}
  topo : Topo := {}
  power : Power := {}
  integ : Integrity := {}
  dump : Dump := {}
  sec : Security := {}
  mgmt : Mgmt := {}
  /-- Free values drawn so far (log entry 11). -/
  free : Nat := 0
  /-- What the module sent out, newest first (log entry 9). -/
  emitted : List Emission := []
  /-- The commands that wait, first in, first out. -/
  pending : List Instr := []
  deriving DecidableEq, Repr

/-- The telemetry mirror's bytes whose Reset column is not 0, as (offset, bytes) runs: DEPTH, SPARE_PHYS, which is the fuses', and REPLACED, PORT,
BEARING, CAP, LOGICAL and the core map's bytes 120 to 127 (R37, R206, R226, R231, R350, R391). -/
def mirrorResetRuns (f : Fuses) : List (Nat × Bytes) :=
  [(0x2009, [0xFF])] ++
  (List.range 24).map (fun t =>
    let spare : BitVec 16 := BitVec.ofNat 16 (Tab.get 31 t f.spareChannel)
    (0x2402 + 32 * t, [spare.extractLsb' 0 4 ++ (0 : BitVec 4), (0x1F : BitVec 7) ++ spare.extractLsb' 4 1])) ++
  (List.range 24).map (fun n => (0x2801 + 32 * n, [0x1E])) ++
  (List.range 12).map (fun q => (0x2B00 + 16 * q, [0xF0])) ++
  [(0x300A, [0xC0, 0x12])] ++
  [(0x3778, List.replicate 8 0xFF)] ++
  (List.range 128).map (fun p => (0x3808 + 16 * p, [0xFF]))

/-- The telemetry mirror at reset. -/
def mirrorReset (f : Fuses) : Table Byte :=
  (mirrorResetRuns f).flatMap fun r => (List.range r.2.length).map fun i => (r.1 + i, r.2.getD i 0)

/-- The machine right after reset: 48 V has just been applied (start-up step 1), every register at its Reset column. -/
def State.reset : State :=
  { regs := { mirror := mirrorReset {} } }

end Sys2Proof.Machine
end

