-- ==== Sys2Proof/Machine/Ops.lean ====
section
/-! DEFINITION. The operations that the commands share: updating one part of the state, time, the event log
(R353 to R357, R367), device states (R390) and completions (R384 to R395). -/
namespace Sys2Proof.Machine

/-- The outcome of a command. -/
abbrev Out := Host.Outcome State Fault Refusal

/-- The state at the end of a command: the queue and the fuses are no command's to change. -/
def committed (s t : State) : State :=
  { t with pending := s.pending, fuses := s.fuses }

/-- The end of every command. -/
def commit (s t : State) : Out :=
  .next (committed s t)

/-! ## Updates of one part -/

def State.onDev (f : Device → Device) (s : State) : State :=
  { s with dev := f s.dev }

def State.onClock (f : Clock → Clock) (s : State) : State :=
  { s with clock := f s.clock }

def State.onMer (f : Meridian → Meridian) (s : State) : State :=
  { s with mer := f s.mer }

def State.onLog (f : EventLog → EventLog) (s : State) : State :=
  { s with log := f s.log }

def State.onFaults (f : FaultWindows → FaultWindows) (s : State) : State :=
  { s with faults := f s.faults }

def State.onRegs (f : HostRegs → HostRegs) (s : State) : State :=
  { s with regs := f s.regs }

def State.onMboxes (f : Table Mailbox → Table Mailbox) (s : State) : State :=
  { s with mboxes := f s.mboxes }

def State.onCofin (f : Cofin → Cofin) (s : State) : State :=
  { s with cofin := f s.cofin }

def State.onJob (f : Job → Job) (s : State) : State :=
  { s with job := f s.job }

def State.onSealSt (f : Seal → Seal) (s : State) : State :=
  { s with sealSt := f s.sealSt }

def State.onCores (f : Table Core → Table Core) (s : State) : State :=
  { s with cores := f s.cores }

def State.onCoreMap (f : List Nat → List Nat) (s : State) : State :=
  { s with coreMap := f s.coreMap }

def State.onRepairs (f : Table (BitVec 16) → Table (BitVec 16)) (s : State) : State :=
  { s with repairs := f s.repairs }

def State.onHubs (f : Table Hub → Table Hub) (s : State) : State :=
  { s with hubs := f s.hubs }

def State.onStacks (f : Table Stack → Table Stack) (s : State) : State :=
  { s with hbmStacks := f s.hbmStacks }

def State.onMem (f : List Host.Cell → List Host.Cell) (s : State) : State :=
  { s with mem := f s.mem }

def State.onPoison (f : Table Bool → Table Bool) (s : State) : State :=
  { s with poison := f s.poison }

def State.onDir (f : Table DirEntry → Table DirEntry) (s : State) : State :=
  { s with dir := f s.dir }

def State.onRowSplit (f : Nat → Nat) (s : State) : State :=
  { s with rowSplit := f s.rowSplit }

def State.onLinks (f : Table Link → Table Link) (s : State) : State :=
  { s with links := f s.links }

def State.onPorts (f : Table Port → Table Port) (s : State) : State :=
  { s with ports := f s.ports }

def State.onRouter (f : Router → Router) (s : State) : State :=
  { s with router := f s.router }

def State.onGws (f : Table Gateway → Table Gateway) (s : State) : State :=
  { s with gws := f s.gws }

def State.onSurvey (f : Survey → Survey) (s : State) : State :=
  { s with survey := f s.survey }

def State.onTopo (f : Topo → Topo) (s : State) : State :=
  { s with topo := f s.topo }

def State.onPower (f : Power → Power) (s : State) : State :=
  { s with power := f s.power }

def State.onInteg (f : Integrity → Integrity) (s : State) : State :=
  { s with integ := f s.integ }

def State.onDump (f : Dump → Dump) (s : State) : State :=
  { s with dump := f s.dump }

def State.onSec (f : Security → Security) (s : State) : State :=
  { s with sec := f s.sec }

def State.onMgmt (f : Mgmt → Mgmt) (s : State) : State :=
  { s with mgmt := f s.mgmt }

def State.onFree (f : Nat → Nat) (s : State) : State :=
  { s with free := f s.free }

def State.onEmitted (f : List Emission → List Emission) (s : State) : State :=
  { s with emitted := f s.emitted }

/-- Mailbox `m`, core `p`, hub `h`, stack `t`, link `n`, port `q`, gateway port `g` and directory entry `k`. -/
def State.mbox (s : State) (m : Nat) : Mailbox := Tab.get {} m s.mboxes
def State.core (s : State) (p : Nat) : Core := Tab.get {} p s.cores
def State.hub (s : State) (h : Nat) : Hub := Tab.get {} h s.hubs
def State.stack (s : State) (t : Nat) : Stack := Tab.get {} t s.hbmStacks
def State.link (s : State) (n : Nat) : Link := Tab.get {} n s.links
def State.port (s : State) (q : Nat) : Port := Tab.get {} q s.ports
def State.gw (s : State) (g : Nat) : Gateway := Tab.get {} g s.gws

def State.onMbox (m : Nat) (f : Mailbox → Mailbox) (s : State) : State := s.onMboxes (Tab.modify {} m f)
def State.onCore (p : Nat) (f : Core → Core) (s : State) : State := s.onCores (Tab.modify {} p f)
def State.onHub (h : Nat) (f : Hub → Hub) (s : State) : State := s.onHubs (Tab.modify {} h f)
def State.onStack (t : Nat) (f : Stack → Stack) (s : State) : State := s.onStacks (Tab.modify {} t f)
def State.onLink (n : Nat) (f : Link → Link) (s : State) : State := s.onLinks (Tab.modify {} n f)
def State.onPort (q : Nat) (f : Port → Port) (s : State) : State := s.onPorts (Tab.modify {} q f)
def State.onGw (g : Nat) (f : Gateway → Gateway) (s : State) : State := s.onGws (Tab.modify {} g f)

/-- The gateway ports are enabled (R232). -/
def State.gwEnabled (s : State) : Bool := s.dev.state == .ready || s.dev.state == .running || s.dev.state == .draining

/-- STATE of R236: a port with a transceiver is disabled outside READY, RUNNING and DRAINING. -/
def State.gwState (s : State) (g : Nat) : BitVec 2 :=
  if (s.gw g).state ≠ 0 && !s.gwEnabled then 3 else (s.gw g).state

/-- Strand `t` of core `p`. -/
def State.strand (s : State) (p t : Nat) : Strand := Tab.get {} t (s.core p).strands

def State.onStrand (p t : Nat) (f : Strand → Strand) (s : State) : State :=
  s.onCore p fun c => { c with strands := Tab.modify {} t f c.strands }

/-- Apply `f` for each element, in order. -/
def State.each {α : Type} (l : List α) (f : State → α → State) (s : State) : State := l.foldl f s

/-- Record one thing sent out (log entry 9). -/
def State.emit (e : Emission) (s : State) : State :=
  s.onEmitted fun l => e :: l

/-! ## Time (log entry 1) -/

/-- ns that a commanded slew still lasts at uptime `u`. -/
def Meridian.slewLeft (m : Meridian) (u : Nat) : Nat :=
  match m.slew with
  | some (_, began, ms) => began + ms * 1000000 - u
  | none => 0

/-- The rate of a commanded slew, in 0.01 ppm. -/
def Meridian.slewRate (m : Meridian) : Int :=
  match m.slew with
  | some (rate, _, _) => rate
  | none => 0

/-- What slewing moves the counter by in the `n` ns from uptime `u` on, in 10⁻⁸ ns: the steering rate, after it the learned one, and
a commanded slew while it lasts (R35, R402). -/
def Meridian.gain (m : Meridian) (u n : Nat) : Int :=
  m.trim * (min n (m.trimEnd - u) : Nat) + m.learned * (n - (m.trimEnd - u) : Nat) + m.slewRate * (min n (m.slewLeft u) : Nat)

/-- The counter `n` ns on. -/
def Clock.run (m : Meridian) (n : Nat) (c : Clock) : Clock :=
  let total := c.phase + m.gain c.uptime n
  { c with
    uptime := c.uptime + n, meridian := ((c.meridian : Int) + n + total / 100000000).toNat, phase := total % 100000000 }

/-- `n` ns pass: the counter counts them and slews (R28, R35). -/
def State.advance (n : Nat) (s : State) : State := s.onClock (Clock.run s.mer n)

/-- Time runs to uptime `t`; it never runs back. -/
def State.advanceTo (t : Nat) (s : State) : State :=
  s.advance (t - s.clock.uptime)

/-- The counter's value, in 10⁻⁸ ns, `n` ns on. -/
def State.counterAfter (s : State) (n : Nat) : Int :=
  100000000 * ((s.clock.meridian : Int) + n) + s.clock.phase + s.mer.gain s.clock.uptime n

/-- ns until the counter reaches `m`: the last end of a rate that comes before it, and what is left at the rate after that end. -/
def State.nsTo (s : State) (m : Nat) : Nat :=
  let goal : Int := 100000000 * m
  let ends := [s.mer.trimEnd - s.clock.uptime, s.mer.slewLeft s.clock.uptime]
  let a := (ends.filter fun e => decide (s.counterAfter e < goal)).foldl max 0
  let step := s.counterAfter (a + 1) - s.counterAfter a
  a + ((goal - s.counterAfter a + step - 1) / step).toNat

/-- Time runs to meridian value `m`; it never runs back. -/
def State.meridianTo (m : Nat) (s : State) : State :=
  if m ≤ s.clock.meridian then s else s.advance (s.nsTo m)

/-- What the module does while no command waits: with 48 V present, one ns passes (log entry 1). -/
def State.idle (s : State) : State :=
  if s.dev.vin48 then s.advance 1 else s

/-- UPTIME in ms. -/
def State.ms (s : State) : Nat := s.clock.uptime / 1000000

/-! ## Source units (R20) -/

def srcModule : Nat := 0x000
def srcCompute (c : Nat) : Nat := 0x100 + c
def srcCore (p : Nat) : Nat := 0x200 + p
def srcHub (h : Nat) : Nat := 0x300 + h
def srcStack (t : Nat) : Nat := 0x400 + t
def srcLinkDie (d : Nat) : Nat := 0x500 + d
def srcLink (n : Nat) : Nat := 0x600 + n
def srcControl : Nat := 0x700
def srcGateway (g : Nat) : Nat := 0x800 + g
def srcCarrier : Nat := 0x900
/-- The rail of a PMBus page; no event of the manual comes from one (R20, R23). -/
def srcRail (page : Nat) : Nat := srcCarrier + 1 + page

def srcDie : Die → Nat
  | .compute i => srcCompute i.val
  | .hub i => srcHub i.val
  | .link i => srcLinkDie i.val
  | .control i => 0x701 + i.val

/-! ## Cores and hubs (R14 to R16) -/

/-- The physical core of logical core `n`; 0xFF before start-up step 5. -/
def State.phys (s : State) (n : Nat) : Nat := s.coreMap.getD n 0xFF

/-- The compute die, the cluster and the hub of physical core `p`. -/
def dieOf (p : Nat) : Nat := p / 8
def clusterOf (p : Nat) : Nat := p / 4
def hubOf (p : Nat) : Nat := p / 16

/-- The hub of HBM stack `t`. -/
def hubOfStack (t : Nat) : Nat := t / 3

/-! ## The event log -/

/-- The code word of an event (R353). -/
def eventWord (cls src code : Nat) : Word :=
  BitVec.ofNat 32 (cls * 2 ^ 24 + src * 2 ^ 12 + code)

/-- MERIDIAN of a log entry: bit 63 is 1 when the counter is not Locked (R354). -/
def State.meridianStamp (s : State) : BitVec 64 :=
  BitVec.ofNat 64 (s.clock.meridian % 2 ^ 63 + if s.mer.lock = 2 then 0 else 2 ^ 63)

/-- Put an entry into the first-fault area while it has room, else into the ring, whose oldest entry gives way (R355). -/
def EventLog.push (e : Entry) (l : EventLog) : EventLog :=
  let l := { l with nextSeq := l.nextSeq + 1, lastEvent := e.event, lastSeq := e.seq }
  if l.first.length < 64 then { l with first := l.first ++ [e] }
  else if l.ring.length < 4032 then { l with ring := l.ring ++ [e] }
  else { l with ring := l.ring.drop 1 ++ [e] }

/-- Send an interrupt, or hold it while the Cofin link is down (R385). -/
def State.interrupt (addr : BitVec 64) (data : Word) (s : State) : State :=
  if s.cofin.up then s.emit (.interrupt addr data)
  else s.onCofin fun c => { c with irqDue := c.irqDue ++ [(addr, data)] }

/-- Set bit `cls` of EVENT_PENDING; a rise with its EVENT_IRQ_EN bit set sends the event interrupt (R388). -/
def State.pend (cls : Nat) (s : State) : State :=
  let bit : Byte := BitVec.ofNat 8 (2 ^ (cls - 1))
  if s.regs.eventPending &&& bit = 0 then
    let t := s.onRegs fun r => { r with eventPending := r.eventPending ||| bit }
    if s.regs.eventIrqEn &&& bit = 0 then t else t.interrupt s.regs.eventIrqAddr s.regs.eventIrqData
  else s

/-- The datagram of a log entry: to the collector, or without one to the all-nodes address ff02::1; a port of 0 stands for its default (R436, R438). -/
def State.eventDatagram (s : State) (e : Entry) : Emission :=
  let m := s.mgmt.applied
  .datagram (if m.collector = 0 then 0xFF020000000000000000000000000001 else m.collector) (if m.collectorPort = 0 then 19541 else m.collectorPort)
    (if m.logPort = 0 then 19542 else m.logPort) e

/-- Log one entry: the log (R355), the datagram of the management port (R357), the event summary (R388) and the
in-band interrupt of R438. The management interfaces are served from start-up step 3; what was logged before is sent then (log entry 144). -/
def State.logRaw (cls src code : Nat) (detail : Nat) (s : State) : State :=
  let e : Entry :=
    { event := eventWord cls src code, seq := s.log.nextSeq, uptime := BitVec.ofNat 64 s.clock.uptime
      meridian := s.meridianStamp, detail := BitVec.ofNat 64 detail }
  let t := (s.onLog (EventLog.push e)).pend cls
  if s.dev.standbyOn then
    let t := t.emit (t.eventDatagram e)
    if s.mgmt.ibiEn &&& BitVec.ofNat 8 (2 ^ (cls - 1)) = 0 then t else t.emit (.ibi cls)
  else t

/-- The EVENTS_COALESCED entry of a burst whose millisecond has ended (R356). -/
def State.logBurst (s : State) (b : Burst) : State :=
  if b.seen ≤ 4 then s
  else
    let w := b.key.toNat
    s.logRaw (natBits w 31 24) (natBits w 23 12) 0xF10 (natBits w 11 0 + (b.seen - 4) % 2 ^ 32 * 2 ^ 16)

/-- Log an EVENTS_COALESCED entry for each key suppressed in a millisecond before `ms` (R356). -/
def State.flushBursts (ms : Nat) (s : State) : State :=
  let old := s.log.bursts.filter fun b => decide (b.ms < ms)
  (s.onLog fun l => { l with bursts := l.bursts.filter fun b => decide (ms ≤ b.ms) }).each old State.logBurst

/-- Log an event unless 4 of its key are logged in this uptime millisecond (R356). -/
def State.logCoalesced (cls src code detail : Nat) (s : State) : State :=
  let key := eventWord cls src code
  let s := s.flushBursts s.ms
  match s.log.bursts.find? fun b => b.key = key with
  | none =>
    (s.onLog fun l => { l with bursts := ⟨key, s.ms, 1⟩ :: l.bursts }).logRaw cls src code detail
  | some b =>
    let t := s.onLog fun l =>
      { l with bursts := l.bursts.map fun c => if c.key = key then { c with seen := c.seen + 1 } else c }
    if b.seen < 4 then t.logRaw cls src code detail else t

/-- The window and the threshold of a code and source: its own setting, the code's, or the defaults (R368). -/
def FaultWindows.policy (f : FaultWindows) (code src : Nat) : Nat × Nat :=
  match f.policies.find? fun p => p.code.toNat = code && p.source.toNat = src with
  | some p => (p.window, p.threshold)
  | none =>
    match f.policies.find? fun p => p.code.toNat = code && p.source.toNat = 0xFFF with
    | some p => (p.window, p.threshold)
    | none => (60, 3)

/-- A counted event (R367): the classes Integrity to Power, or a code that a FAULT_POLICY names; never FAULT_LASTING
or EVENTS_COALESCED. -/
def FaultWindows.counted (f : FaultWindows) (cls code : Nat) : Bool :=
  code ≠ 0xF09 && code ≠ 0xF10 &&
    (4 ≤ cls || f.policies.any fun p => p.code.toNat = code)

/-- The counts of a fault key after one more event in window `k` (R367). -/
def FaultCount.bump (k : Nat) (c : FaultCount) : FaultCount :=
  if c.index = k then { c with now := c.now + 1 }
  else if c.index + 1 = k then { c with index := k, before := c.now, now := 1 }
  else { c with index := k, before := 0, now := 1 }

/-- Count an event of key (code, src, sub); true when its two windows reach the threshold, which clears both (R367). -/
def FaultWindows.count (code src sub uptime : Nat) (f : FaultWindows) : FaultWindows × Bool :=
  let (w, n) := f.policy code src
  let k := uptime / (w * 1000000000)
  let mine : FaultCount → Bool := fun c => c.code.toNat = code && c.source.toNat = src && c.sub = sub
  let old := (f.counts.find? mine).getD
    { code := BitVec.ofNat 12 code, source := BitVec.ofNat 12 src, sub, index := k, now := 0, before := 0 }
  let c := old.bump k
  let others := f.counts.filter fun c => !mine c
  if n ≤ c.now + c.before then ({ f with counts := others }, true)
  else ({ f with counts := c :: others }, false)

/-- The counts of the integrity status block that an event raises (R379), and INTEG of the seal vote (R318). -/
def State.countStatus (cls code : Nat) (s : State) : State :=
  let s := if cls = 4 then s.onLog fun l => { l with integ := satInc l.integ } else s
  if code = 0x401 then s.onInteg fun i => { i with arrayChecks := satInc i.arrayChecks }
  else if code = 0xF01 then s.onInteg fun i => { i with parityErrors := satInc i.parityErrors }
  else if code = 0xF02 then s.onInteg fun i => { i with payloadCrcs := satInc i.payloadCrcs }
  else if code = 0xF0C then s.onInteg fun i => { i with hangRecoveries := satInc i.hangRecoveries }
  else s

/-- Log and count an event; the second answer is the lasting verdict, already logged as FAULT_LASTING (R367).
`sub` is the hub channel of HBM codes and the arrival link of PAYLOAD_CRC. -/
def State.logVerdict (e : Event) (src detail sub : Nat) (s : State) : State × Bool :=
  let (cls, code) := e.info
  let s := (s.logCoalesced cls src code detail).countStatus cls code
  if s.faults.counted cls code then
    let (f, lasting) := s.faults.count code src sub s.clock.uptime
    let s := s.onFaults fun _ => f
    if lasting then
      ((s.logRaw cls src 0xF09 code).onInteg fun i => { i with lasting := satInc i.lasting }, true)
    else (s, false)
  else (s, false)

/-- Log an event whose lasting verdict has no action beyond FAULT_LASTING (R369); `sub` as for `logVerdict`. -/
def State.note (e : Event) (src : Nat) (detail : Nat := 0) (sub : Nat := 0) (s : State) : State :=
  (s.logVerdict e src detail sub).1

/-! ## Upsets -/

/-- What the check of a unit finds: a word whose parity bit is right passes (R358, R366). -/
def upsetFound (u : Upset) : Upset :=
  match u with
  | .pathParity w p => if parityBit w = p then .none else u
  | _ => u

/-! ## Device states -/

/-- The code of a device state (R389). -/
def DevState.code : DevState → Nat
  | .off => 0
  | .standby => 1
  | .held => 2
  | .initialising => 3
  | .ready => 4
  | .running => 5
  | .draining => 6
  | .faulted => 7
  | .dumping => 8

/-- Enter a device state; a change logs STATE_CHANGE with the old code in DETAIL [7:0] and the new one in [15:8] (R390,
log entry 23). -/
def State.enter (d : DevState) (s : State) : State :=
  if s.dev.state = d then s
  else
    let t := s.onDev fun v =>
      { v with state := d, stateChanges := satInc v.stateChanges, heldCause := if d = .held then v.heldCause else 0 }
    t.note .stateChange srcModule (s.dev.state.code + d.code * 256)

/-- Enter HELD with a cause (R389). -/
def State.hold (cause : Nat) (s : State) : State :=
  (s.enter .held).onDev fun v => { v with heldCause := BitVec.ofNat 8 cause }

/-! ## Host memory and completions -/

/-- The writes of host memory that carry some bytes: up to 4 KiB each, in order (R384). -/
def hostPieces (addr : BitVec 64) (data : Bytes) : List Emission :=
  (chunks 4096 data.length data).zipIdx.map fun e => .hostWrite (addr + BitVec.ofNat 64 (4096 * e.2)) e.1

/-- Write bytes to host memory (R384). -/
def State.hostWrite (addr : BitVec 64) (data : Bytes) (s : State) : State := s.onEmitted fun l => (hostPieces addr data).reverse ++ l

/-- The completion interrupt of R395: due when IRQ_EN is 1 and IRQ_COUNT completions wait, or at once with no delay. -/
def State.signal (m : Nat) (s : State) : State :=
  let b := s.mbox m
  if b.irqEn && (max 1 b.irqCount.toNat ≤ b.unsignalled || (b.irqDelayUs = 0 && 0 < b.unsignalled)) then
    (s.onMbox m fun b => { b with unsignalled := 0 }).interrupt b.irqAddr b.irqData
  else s

/-- After a ring error the completion ring may have no room left (R393). -/
def Mailbox.noRoom (b : Mailbox) : Bool := b.ringError && decide (2 ^ b.cmpLog2.toNat ≤ (b.cmpTail - b.cmpHead).toNat)

/-- Put a completion into the ring: output, entry, CMP_TAIL, its shadow, then the interrupt (R395). -/
def State.putCompletion (m : Nat) (c : Completion) (s : State) : State :=
  let b := s.mbox m
  let base := b.cmpBase.toNat / 64 * 64
  let slot := b.cmpTail.toNat % 2 ^ b.cmpLog2.toNat
  let s := (s.hostWrite c.buffer c.output).emit
    (.completion m (BitVec.ofNat 64 (base + 16 * slot)) c.tag c.status c.detail)
  let s := s.onMbox m fun b =>
    { b with cmpTail := b.cmpTail + 1, completed := satInc b.completed
             unsignalled := b.unsignalled + if c.noIrq then 0 else 1 }
  let s := if b.version = 3 && b.cmpShadow ≠ 0 then s.hostWrite b.cmpShadow (leBytes 4 (b.cmpTail + 1).toNat) else s
  s.signal m

/-- Write a completion while there is room (R393, R395). -/
def State.writeCompletion (m : Nat) (c : Completion) (s : State) : State := if (s.mbox m).noRoom then s else s.putCompletion m c

/-- Remove the first entry that satisfies `p`. -/
def dropFirst {α : Type} (p : α → Bool) : List α → List α
  | [] => []
  | h :: t => if p h then t else h :: dropFirst p t

/-- Complete the oldest command in flight with `tag` on mailbox `m`: written, held while the Cofin link is down (R385),
or dropped after RESET (R397). -/
def State.complete (m : Nat) (tag : Word) (status : Nat) (detail : Nat := 0) (buffer : BitVec 64 := 0)
    (output : Bytes := []) (s : State) : State :=
  let b := s.mbox m
  match b.dropped.find? fun f => f.tag = tag with
  | some _ => s.onMbox m fun b => { b with dropped := dropFirst (fun f => f.tag = tag) b.dropped }
  | none =>
    match b.inFlight.find? fun f => f.tag = tag with
    | none => s
    | some f =>
      let s := s.onMbox m fun b => { b with inFlight := dropFirst (fun f => f.tag = tag) b.inFlight }
      let c : Completion :=
        { tag, status := BitVec.ofNat 16 status, detail := BitVec.ofNat 80 detail, output, buffer
          noIrq := f.flags.getLsbD 1 }
      if s.cofin.up then s.writeCompletion m c
      else s.onMbox m fun b => { b with heldOut := b.heldOut ++ [c] }

/-- Write the completions held while the link was down, in ring order (R385). -/
def State.flushHeld (m : Nat) (s : State) : State :=
  let held := (s.mbox m).heldOut
  (s.onMbox m fun b => { b with heldOut := [] }).each held fun s c => s.writeCompletion m c

/-! ## Array records (R97) -/

/-- The record of array `i % 4` of core `i / 4` as fused: no repair where the fuses list none. -/
def State.fusedArray (s : State) (i : Nat) : BitVec 16 := Tab.get 0x2140 i s.fuses.arrays

/-- The record in force: fused, or with the defect map's repairs (R419). -/
def State.arrayRecord (s : State) (i : Nat) : BitVec 16 :=
  let r := Tab.get 0 i s.repairs
  if r = 0 then s.fusedArray i else r

/-- The records of a core's four arrays. -/
def State.arrayRecords (s : State) (p : Nat) : List (BitVec 16) := (List.range 4).map fun a => s.arrayRecord (4 * p + a)

end Sys2Proof.Machine
end

