-- ==== Sys2Proof/Machine/Mailbox.lean ====
section
/-! DEFINITION. Fetching, checking and ending a mailbox command (R389, R392 to R397, R400). -/
namespace Sys2Proof.Machine

/-- The mailboxes whose rings the module fetches in a device state (R389). -/
def DevState.serves (d : DevState) (m : Nat) : Bool :=
  match d with
  | .off => false
  | .standby => m == 0 || m == 4 || m == 5
  | .held => m == 0
  | .initialising => m == 0 || m == 5
  | .ready | .running | .draining => decide (m < 7)
  | .faulted => m == 0 || m == 2 || m == 5 || m == 6
  | .dumping => m == 0

/-- The state allows the command: ROM serves six commands of mailbox 0, and FAULTED only the reads of mailbox 2 (R389). -/
def State.allows (s : State) (op : Nat) : Bool :=
  let m := op / 256
  s.dev.state.serves m &&
    (m ≠ 0 || s.dev.firmware || [0x0001, 0x0002, 0x0003, 0x0005, 0x0006, 0x0008].contains op) &&
    (s.dev.state ≠ .faulted || m ≠ 2 || op == 0x0206)

/-- The commands of each mailbox by their number (R402 to R409). -/
def commandCount (m : Nat) : Nat :=
  [14, 5, 9, 8, 5, 2, 5].getD m 0

/-- Commands that version 2 does not have (R400). -/
def version3Only : List Nat :=
  [0x000B, 0x000E, 0x0007, 0x0302, 0x0306, 0x0307, 0x0308, 0x0404, 0x0405]

/-- The command exists on its mailbox at the version the mailbox runs (R394, R400). -/
def State.exists? (s : State) (m op : Nat) : Bool :=
  op / 256 == m && 0 < op % 256 && op % 256 ≤ commandCount m &&
    ((s.mbox m).version ≠ 2 || !version3Only.contains op)

/-- The fixed length of a command's input buffer, where it has one (R406, R298). -/
def inputLength (op : Nat) : Nat :=
  if op = 0x0301 then 1424 else if op = 0x0306 then 128 else if op = 0x0308 then 128 else 0

/-- The checks of R394, in their order: the status of the first that fails. -/
def State.checkFetched (s : State) (m op : Nat) (c : Cmd) : Option Nat :=
  if !s.exists? m op then some 0x011A
  else if c.buffer.toNat % 64 ≠ 0 && c.length ≠ 0 || c.length.toNat < inputLength op then some 0x011B
  else if !s.allows op then some 0x0201
  else none

/-- MAX_IN_FLIGHT and DEFAULT_TIMEOUT_US (R396). -/
def maxInFlight (m : Nat) : Nat := [4, 16, 64, 4, 4, 4, 4].getD m 0
def defaultTimeoutUs (m : Nat) : Nat :=
  [1000000, 10000000, 60000000, 60000000, 1000000, 1000000, 60000000].getD m 0

/-- The timeout of a command in ns (R394, R400). -/
def State.timeoutNs (s : State) (m op : Nat) (c : Cmd) : Nat :=
  1000 *
    (if (s.mbox m).version = 2 then (if op = 0x0105 then 60000000 else defaultTimeoutUs m)
     else if c.timeoutUs = 0 then defaultTimeoutUs m else c.timeoutUs.toNat)

/-- Commands fetched and not completed (R392 IN_FLIGHT). -/
def Mailbox.inFlightCount (b : Mailbox) : Nat := b.inFlight.length + b.heldOut.length

/-- SERVICED, with the ROM restart of R374. -/
def State.serviced (s : State) (m : Nat) : Bool :=
  s.dev.state.serves m && (s.mbox m).enable && !s.dev.romRestart

/-- The module may fetch the mailbox's next command (R385, R393, R394 FENCE). -/
def State.fetchable (s : State) (m : Nat) (flags : Byte) : Bool :=
  let b := s.mbox m
  s.cofin.up && s.serviced m && !b.ringError && b.cmdHead ≠ b.cmdTail &&
    decide (b.inFlightCount < maxInFlight m) &&
    decide (b.inFlightCount + (b.cmpTail - b.cmpHead).toNat < 2 ^ b.cmpLog2.toNat) &&
    (b.version = 2 || !flags.getLsbD 0 || b.inFlightCount == 0)

/-- Fetch one descriptor: CMD_HEAD counts on, and the timeout starts (R393, R372). -/
def State.fetch (m op : Nat) (c : Cmd) (s : State) : State :=
  let f : InFlightCmd :=
    { tag := c.tag, opcode := BitVec.ofNat 16 op, flags := c.flags
      deadline := s.clock.uptime + s.timeoutNs m op c, begun := false }
  s.onMbox m fun b => { b with cmdHead := b.cmdHead + 1, inFlight := b.inFlight ++ [f] }

/-- A ring error: fetching stops until RESET (R393). DETAIL [7:0] is the mailbox, [15:8] the cause (log entry 23). -/
def State.ringError (m cause : Nat) (s : State) : State :=
  (s.onMbox m fun b => { b with ringError := true, errorCause := BitVec.ofNat 4 cause }).note
    .mailboxRingError srcControl (m + cause * 256)

/-- Mark the oldest command with `tag` as begun. -/
def markBegun (tag : Word) : List InFlightCmd → List InFlightCmd
  | [] => []
  | f :: t => if f.tag = tag && !f.begun then { f with begun := true } :: t else f :: markBegun tag t

/-- A command with this tag and opcode is fetched and has not begun, on a running or a reset mailbox. -/
def Mailbox.waits (b : Mailbox) (op : Nat) (tag : Word) : Bool :=
  (b.inFlight ++ b.dropped).any fun f => f.tag = tag && f.opcode.toNat = op && !f.begun

/-- A failed read of host memory ends the command (R384). -/
def State.hostDma (m : Nat) (c : Cmd) (s : State) : State :=
  (s.note .hostDmaError srcControl).complete m c.tag 0x0404

/-- Begin a command's work. -/
def State.work (m : Nat) (c : Cmd) (reads : Bool) (body : State → State) (s : State) : State :=
  let s := s.onMbox m fun b => { b with inFlight := markBegun c.tag b.inFlight, dropped := markBegun c.tag b.dropped }
  if reads && !c.dmaOk then s.hostDma m c else body s

/-- A mailbox command: it runs when COMMAND_FETCH has fetched it; otherwise the row stands for its fetch too, when the
module may fetch (log entry 8). `reads` says that it reads its buffer in host memory. -/
def State.command (m op : Nat) (c : Cmd) (reads : Bool) (body : State → State) (s : State) : State :=
  if (s.mbox m).waits op c.tag then s.work m c reads body
  else if s.fetchable m c.flags then
    let s := s.fetch m op c
    match s.checkFetched m op c with
    | some status => s.complete m c.tag status
    | none => s.work m c reads body
  else s

/-- End a command without output. -/
def State.finish (m : Nat) (c : Cmd) (status : Nat) (s : State) (detail : Nat := 0) : State :=
  s.complete m c.tag status detail

/-- End a command with output in its buffer, or with 0x0303 when it does not fit (R411). -/
def State.finishWith (m : Nat) (c : Cmd) (output : Bytes) (s : State) (detail : Nat := 0) : State :=
  if c.length.toNat < output.length then s.complete m c.tag 0x0303
  else s.complete m c.tag 0 detail c.buffer output

end Sys2Proof.Machine
end

