-- ==== Sys2Proof/Machine/Packets.lean ====
section
/-! DEFINITION. What travels on a link: packet headers and tails (R245, R359), slots and their trailers (R240, R241), the payload of seal
messages (R318), and their bytes on the wire. -/
namespace Sys2Proof.Machine

/-! ## Packets (R245, R359) -/

/-- Header bytes 0 to 59. -/
def packetHeader (p : Packet) : Bytes :=
  let b := fun (n v : Nat) => leBytes n v
  b 1 (p.type.toNat + p.vc.toNat * 16 + p.ordered.toNat * 64 + p.last.toNat * 128) ++ b 1 (p.reversed.toNat + p.poison.toNat * 64) ++
    b 2 p.jobTag.toNat ++ b 6 p.coord.toNat ++ b 1 p.destCore.toNat ++ b 1 (p.postQ.toNat + p.postN.toNat * 32) ++
    b 4 (p.srcRank.toNat + p.srcCore.toNat * 2 ^ 17 + p.attempt.toNat * 2 ^ 24) ++ b 4 p.msgId.toNat ++ b 4 p.msgBytes.toNat ++
    b 4 p.offset.toNat ++ b 2 p.bytes.toNat ++ b 2 p.aop.toNat ++ b 8 p.destView.toNat ++ b 8 p.replyView.toNat ++ b 12 0

/-- A packet with its header's check word. -/
def sealHeader (p : Packet) : Packet := { p with hcrc := crc32c (packetHeader p) }

/-- A packet with its payload's length and both check words. -/
def sealPacket (p : Packet) : Packet :=
  sealHeader { p with bytes := BitVec.ofNat 13 p.payload.length, tail := if p.payload.isEmpty then 0 else crc32c p.payload }

def packetHeaderOk (p : Packet) : Bool := p.hcrc == crc32c (packetHeader p)
def packetPayloadOk (p : Packet) : Bool := p.payload.isEmpty || p.tail == crc32c p.payload

/-- A message cut into packets of at most `n` bytes (R245). -/
def cutMessage (n : Nat) (p : Packet) (data : Bytes) : List Packet :=
  let parts := if data.isEmpty then [[]] else chunks n data.length data
  parts.zipIdx.map fun e =>
    sealPacket { p with
      payload := e.1, offset := BitVec.ofNat 32 (n * e.2), msgBytes := BitVec.ofNat 32 data.length
      last := e.2 + 1 = parts.length }

/-- A packet's bytes on a link: header, payload, and the tail flit of one with a payload. -/
def packetBytes (p : Packet) : Bytes :=
  packetHeader p ++ leBytes 4 p.hcrc.toNat ++ p.payload ++
    if p.payload.isEmpty then [] else leBytes 4 p.tail.toNat ++ List.replicate 60 0

/-- Bytes of a packet on a link. -/
def packetLen (p : Packet) : Nat := 64 + p.payload.length + if p.payload.isEmpty then 0 else 64

/-- Fabric cycles of a packet on a link (R240, R359). -/
def packetCycles (p : Packet) (units : Nat) : Nat := ceilDiv (packetLen p) (64 * max 1 units)

/-! ## Slots (R240, R241) -/

/-- Trailer bytes 0 to 27. -/
def slotTrailer (x : Slot) : Bytes :=
  leBytes 1 x.circuit.toNat ++ leBytes 1 (x.postQ.toNat + x.postN.toNat * 32) ++ leBytes 1 (x.dstCore.toNat + x.lastSlot.toNat * 128) ++
    leBytes 1 x.attempt.toNat ++ leBytes 4 x.payload.length ++ leBytes 2 x.frameLo.toNat ++ leBytes 2 x.jobTag.toNat ++ leBytes 16 0

def sealSlot (x : Slot) : Slot := { x with crc := crc32c (x.payload ++ slotTrailer x) }

def slotOk (x : Slot) : Bool := x.crc == crc32c (x.payload ++ slotTrailer x)

/-- A slot's bytes on a link: the slot-open flit of TYPE 0xF, the payload and the trailer. -/
def slotBytes (x : Slot) : Bytes :=
  leBytes 64 0xF ++ x.payload ++ slotTrailer x ++ leBytes 4 x.crc.toNat

/-! ## Seal messages (R318) -/

def kindVote : Nat := 0x10
def kindDecision : Nat := 0x11
def kindMissed : Nat := 0x12
def kindAck : Nat := 0x13
def kindDone : Nat := 0x14
def kindRelease : Nat := 0x15

/-- The 64-byte payload. -/
def sealBytes (kind : Nat) (m : SealMsg) : Bytes :=
  leBytes 1 kind ++ leBytes 1 m.verdict.toNat ++ leBytes 2 m.cause.toNat ++ leBytes 4 m.step.toNat ++ leBytes 4 m.epoch.toNat ++
    leBytes 4 m.chartEpoch.toNat ++ leBytes 4 m.count.toNat ++ leBytes 4 m.integ.toNat ++ leBytes 8 m.granules.toNat ++ leBytes 32 0

/-! ## Other control payloads (log entry 38) -/

/-- KIND of the payloads that the manual does not lay out: a frame-abort broadcast, with STEP in bytes 4 to 7 and f_o in 8 to 15; a PEER_LOST
broadcast and a reshape proposal, with a coordinate in bytes 4 to 9 and a frame in 16 to 23; a request for a granule and its answer, with the
granule's key in bytes 4 to 19, the commit in 20 to 23, and the 4,096 bytes from 64 on. -/
def kindFrameAbort : Nat := 1
def kindPeerLost : Nat := 2
def kindProposal : Nat := 3
def kindSheetAsk : Nat := 4
def kindSheetReply : Nat := 5

def abortBytes (step : Word) (fo : Nat) : Bytes := leBytes 4 kindFrameAbort ++ leBytes 4 step.toNat ++ leBytes 8 fo

def coordBytes (kind : Nat) (c : BitVec 48) (frame : Nat) : Bytes := leBytes 4 kind ++ leBytes 12 c.toNat ++ leBytes 8 frame

def granuleBytes (kind granule commit : Nat) (data : Bytes) : Bytes :=
  leBytes 4 kind ++ leBytes 16 granule ++ leBytes 4 commit ++ if data.isEmpty then [] else leBytes 40 0 ++ data

end Sys2Proof.Machine
end

