-- ==== Sys2Proof/Machine/Route.lean ====
section
/-! DEFINITION. Coordinates, the gazetteer and the shard chart: routes (R251), the broadcast and seal tree (R256,
R319) and a module's place in its job (R267 to R271, R298, R299). -/
namespace Sys2Proof.Machine

/-! ## Coordinates: one byte an axis, X to W -/

def coordAt (c : BitVec 48) (a : Nat) : Nat := c.toNat / 256 ^ a % 256

def coordSet (c : BitVec 48) (a v : Nat) : BitVec 48 :=
  BitVec.ofNat 48 (c.toNat - coordAt c a * 256 ^ a + v % 256 * 256 ^ a)

def allAxes : List Nat := [0, 1, 2, 3, 4, 5]

/-- The rings that coordinates live on. -/
structure Rings where
  m1 : BitVec 48
  line : BitVec 6
  deriving DecidableEq, Repr

def Rings.size (r : Rings) (a : Nat) : Nat := coordAt r.m1 a + 1
def Rings.isLine (r : Rings) (a : Nat) : Bool := r.line.getLsbD a

def Gazetteer.rings (g : Gazetteer) : Rings := ⟨g.ringM1, g.line⟩
def WiringSheet.rings (w : WiringSheet) : Rings := ⟨w.ringM1, BitVec.ofNat 6 w.line.toNat⟩

/-- The offset on axis `a` (R251): a tie goes in the − direction. -/
def Rings.offset (r : Rings) (a : Nat) (own dest : BitVec 48) : Int :=
  let d : Int := (coordAt dest a : Int) - coordAt own a
  if r.isLine a then d
  else
    let n : Int := r.size a
    let k := d % n
    if k < (n + 1) / 2 then k else k - n

/-- One step along bearing `b` (2a is + and 2a + 1 is − on axis a); none where a line ends. -/
def Rings.step (r : Rings) (b : Nat) (c : BitVec 48) : Option (BitVec 48) :=
  let a := b / 2
  let n := r.size a
  let x := coordAt c a
  if b % 2 = 0 then
    (if x + 1 < n then some (coordSet c a (x + 1)) else if r.isLine a then none else some (coordSet c a 0))
  else
    (if 0 < x then some (coordSet c a (x - 1)) else if r.isLine a then none else some (coordSet c a (n - 1)))

/-- `k` steps along a bearing. -/
def Rings.walk (r : Rings) (b : Nat) : Nat → BitVec 48 → Option (BitVec 48)
  | 0, c => some c
  | k + 1, c => (r.step b c).bind (r.walk b k)

/-- The bearing of the deterministic step; none at the destination (R251). -/
def Rings.nextBearing (r : Rings) (own dest : BitVec 48) : Option Nat :=
  (allAxes.find? fun a => r.offset a own dest ≠ 0).map fun a =>
    if 0 < r.offset a own dest then 2 * a else 2 * a + 1

/-- Bearings that reduce a non-zero offset (R252). -/
def Rings.reducing (r : Rings) (own dest : BitVec 48) : List Nat :=
  (allAxes.filter fun a => r.offset a own dest ≠ 0).map fun a =>
    if 0 < r.offset a own dest then 2 * a else 2 * a + 1

/-- Modules on the deterministic route after the own one, with the bearing that leads to each. -/
def Rings.route (r : Rings) (dest : BitVec 48) : Nat → BitVec 48 → List (Nat × BitVec 48)
  | 0, _ => []
  | k + 1, own =>
    match r.nextBearing own dest with
    | none => []
    | some b =>
      match r.step b own with
      | none => []
      | some c => (b, c) :: r.route dest k c

/-- Hops between two coordinates. -/
def Rings.hops (r : Rings) (own dest : BitVec 48) : Nat :=
  (allAxes.map fun a => (r.offset a own dest).natAbs).sum

/-! ## Broadcast tree (R256) -/

/-- The direction (true = +) and the distance in which a broadcast from `src` reaches `own` on axis `a`. -/
def Rings.reach (r : Rings) (a : Nat) (src own : BitVec 48) : Bool × Nat :=
  let s := coordAt src a
  let x := coordAt own a
  if r.isLine a then (decide (s ≤ x), max s x - min s x)
  else
    let n := r.size a
    let d := (x + n - s) % n
    if d ≤ n / 2 then (true, d) else (false, n - d)

/-- The farthest distance a broadcast travels on an axis in a direction. -/
def Rings.span (r : Rings) (a : Nat) (plus : Bool) (src : BitVec 48) : Nat :=
  let n := r.size a
  if r.isLine a then (if plus then n - 1 - coordAt src a else coordAt src a)
  else if plus then n / 2 else (n - 1) / 2

/-- The last axis a broadcast from `src` travels to reach `own`. -/
def Rings.lastAxis (r : Rings) (src own : BitVec 48) : Option Nat :=
  (allAxes.filter fun a => (r.reach a src own).2 ≠ 0).getLast?

/-- Bearings on which `own` sends a broadcast of `src` on: onward on the axis it came by, and both ways on every axis
above; the source sends both ways on every axis (log entry 25). -/
def Rings.forward (r : Rings) (src own : BitVec 48) : List Nat :=
  let both : Nat → List Nat := fun a =>
    (if 0 < r.span a true src then [2 * a] else []) ++ (if 0 < r.span a false src then [2 * a + 1] else [])
  match r.lastAxis src own with
  | none => allAxes.flatMap both
  | some h =>
    let (plus, d) := r.reach h src own
    (if d < r.span h plus src then [if plus then 2 * h else 2 * h + 1] else []) ++
      ((allAxes.filter fun a => h < a).flatMap both)

/-- The bearing from which `own` receives a broadcast of `src`. -/
def Rings.parent (r : Rings) (src own : BitVec 48) : Option Nat :=
  (r.lastAxis src own).map fun h => if (r.reach h src own).1 then 2 * h + 1 else 2 * h

/-- Bearing `b` of `own` leads to `c` in the broadcast tree of `src`. -/
def Rings.below (r : Rings) (src own : BitVec 48) (b : Nat) (c : BitVec 48) : Bool :=
  let a := b / 2
  let plus := b % 2 == 0
  ((allAxes.filter fun x => x < a).all fun x => coordAt c x == coordAt own x) &&
    (r.reach a src c).1 == plus && decide ((r.reach a src own).2 < (r.reach a src c).2)

/-! ## Gazetteer -/

/-- The coordinate of a rank; none where it is not mapped (R248). -/
def Gazetteer.coord (g : Gazetteer) (rank : Nat) : Option (BitVec 48) :=
  if rank < g.jobSize then (g.entries.getD rank none) else none

/-- The rank at a coordinate. -/
def Gazetteer.rankAt (g : Gazetteer) (c : BitVec 48) : Option Nat :=
  g.entries.findIdx? fun e => e == some c

/-- Bearings below this module in the seal tree whose subtrees hold a module of the job (R319, log entry 25). -/
def Gazetteer.children (g : Gazetteer) : List Nat :=
  match g.coord 0 with
  | none => []
  | some root =>
    (g.rings.forward root g.selfCoord).filter fun b =>
      g.entries.any fun e => e.any fun c => g.rings.below root g.selfCoord b c

/-- The bearing toward the seal root; none at the root. -/
def Gazetteer.parentBearing (g : Gazetteer) : Option Nat :=
  (g.coord 0).bind fun root => g.rings.parent root g.selfCoord

/-! ## Ports by bearing -/

/-- The port of a bearing. -/
def State.portAt (s : State) (b : Nat) : Option Nat :=
  (List.range 12).find? fun q => (s.port q).state ≠ .unconfigured && (s.port q).bearing.toNat = b

/-- A port carries data (R229). -/
def PortState.bonded (p : PortState) : Bool := p == .narrow || p == .full

/-- Bonded links of a port in increasing number. -/
def State.bondedLinks (s : State) (q : Nat) : List Nat :=
  if (s.port q).state.bonded then (List.range 24).filter fun n => (s.port q).bonded.getLsbD n else []

/-- Ports of the upstream set (R31): those bonded now, with a link by which the root's claim came. -/
def State.upstreamPorts (s : State) : List Nat :=
  (List.range 12).filter fun q => (s.port q).state.bonded && decide ((s.port q).bonded &&& s.mer.upstream ≠ 0)

/-- Units a link carries: 2 for four lanes, 1 for two (R148). -/
def Link.units (l : Link) : Nat := if l.wide then 2 else 1

/-- Units of the bonded port of a bearing; 0 where there is none. -/
def State.unitsAt (s : State) (b : Nat) : Nat :=
  match s.portAt b with
  | none => 0
  | some q => ((s.bondedLinks q).map fun n => (s.link n).units).sum

/-- The bonded port of a bearing. -/
def State.bondedPort (s : State) (b : Nat) : Option Nat :=
  (s.portAt b).filter fun q => (s.port q).state.bonded

/-! ## The shard chart (R298, R299) -/

/-- A module's place in its job. -/
structure ChartPlace where
  member : Nat
  stage : Nat
  v0 : Nat
  /-- Bearing and hops of the partner at each network level, from level s up. -/
  partners : List (Nat × Nat)
  deriving DecidableEq, Repr

def Chart.axis (c : Chart) (a : Nat) : ChartAxis := c.axes.getD a {}

/-- Cells of the chart's box on an axis; modules on the stage axis. -/
def Chart.cellOn (c : Chart) (r : Rings) (a : Nat) (own : BitVec 48) : Nat :=
  let n := r.size a
  let t := (coordAt own a + n - (c.axis a).origin % n) % n
  if a = 0 then t / c.group else t

/-- An axis that carries cells: every axis but the stage axis (X is one by its cells of g modules). -/
def Chart.isData (c : Chart) (a : Nat) : Bool := a ≠ c.stageAxis

/-- The place of a coordinate; none where it lies outside the job (R299), with the gazetteer's ring sizes. -/
def Chart.place (c : Chart) (g : Gazetteer) (own : BitVec 48) : Option ChartPlace :=
  if c.rank then
    (c.ranks.findIdx? fun e => e == some own).map fun k => { member := 0, stage := 0, v0 := k, partners := [] }
  else
    let r := g.rings
    let stage := c.cellOn r c.stageAxis own
    let n := r.size 0
    let member := (coordAt own 0 + n - (c.axis 0).origin % n) % n % c.group
    let inBox := allAxes.all fun a =>
      !c.isData a ||
        (let x := c.cellOn r a own
         decide (x < 2 ^ (c.axis a).spanLog2) &&
           (BitVec.ofNat 8 x &&& (c.axis a).fixedMask) == (c.axis a).fixedValue)
    if stage < c.stages && inBox then
      let bits := c.ladder.map fun e => c.cellOn r e.1 own / 2 ^ e.2 % 2
      let b := (bits.zipIdx.map fun e => e.1 * 2 ^ e.2).sum
      some
        { member, stage, v0 := b * 2 ^ c.spmLog2
          partners := (c.ladder.zip bits).map fun e =>
            (2 * e.1.1 + e.2, (if e.1.1 = 0 then c.group else 1) * 2 ^ e.1.2) }
    else none

/-- This module's place. -/
def State.place (s : State) : Option ChartPlace :=
  match s.topo.chart, s.topo.gaz with
  | some c, some g => c.place g g.selfCoord
  | _, _ => none

/-- The virtual shard of a local shard slot (R143, R171). -/
def State.shardOf (s : State) (slot : Nat) : Nat :=
  match s.place with
  | some p => p.v0 + (s.topo.chart.map fun c => c.slots.getD slot slot).getD slot
  | none => slot

/-- The stage index that selects a role on axis `a` (R151): the coordinate less the chart's origin, or the coordinate itself
under the rank chart. -/
def State.stageOn (s : State) (a : Nat) : Option Nat :=
  match s.topo.chart, s.topo.gaz with
  | some c, some g =>
    if c.rank then some (coordAt g.selfCoord a)
    else
      let n := g.rings.size a
      some ((coordAt g.selfCoord a + n - (c.axis a).origin % n) % n)
  | _, _ => none

/-- The module's own coordinate: of the gazetteer in force, or of survey. -/
def State.ownCoord (s : State) : BitVec 48 :=
  match s.topo.gaz with
  | some g => g.selfCoord
  | none => s.survey.coord.getD 0

/-- The rings that routes count on: the gazetteer's, else the wiring sheet's. -/
def State.rings (s : State) : Rings :=
  match s.topo.gaz with
  | some g => g.rings
  | none => s.survey.sheet.rings

/-- The other direction of a bearing's axis. -/
def opposite (b : Nat) : Nat := if b % 2 = 0 then b + 1 else b - 1

/-- The coordinate of the neighbour at bearing `b`. -/
def State.neighbourAt (s : State) (b : Nat) : Option (BitVec 48) :=
  match s.topo.gaz with
  | some g => g.rings.step b g.selfCoord
  | none => s.survey.sheet.rings.step b (s.survey.coord.getD 0)

end Sys2Proof.Machine
end

