-- ==== Sys2Proof/Machine/Net.lean ====
section
/-! DEFINITION. The link layer's transmitter (R216 to R219): groups, the retry buffer and the side stream. The router's outputs (R251 to R258):
routes and reversals, staging, injection, broadcast and its replication buffer, the own input pools and their credits. -/
namespace Sys2Proof.Machine

/-! ## Groups (R215 to R217) -/

/-- The trained lanes that a link uses. -/
def Link.lanes (l : Link) : List Nat := if l.wide then [0, 1, 2, 3] else if l.pairB then [2, 3] else [0, 1]

/-- Bytes of a group (R217). -/
def Link.groupBytes (l : Link) : Nat := if l.wide then 2560 else 1280

/-- The pieces of 32 bytes that travel in the `i`-th of `w` trained lanes: those numbered i modulo w (R217). -/
def laneData (w i : Nat) (data : Bytes) : Bytes :=
  ((chunks 32 (data.length + 1) data).zipIdx.filter fun e => e.2 % w = i).flatMap fun e => e.1

/-- Groups that a side message takes (R218). -/
def Link.sideGroups (l : Link) : Nat := if l.wide then 11 else 22

/-- The 3 SIDE bits of the `i`-th trained lane in the `j`-th group after UPTIME `now` (in 0.1 ns): a group takes 12.8 ns (R215, R218). -/
def Link.sideBits (l : Link) (now j i : Nat) : Nat :=
  match l.sideNow with
  | some (m, start) => m.toNat / 2 ^ (3 * (l.lanes.length * ((now - start) / 128 + j) + i)) % 8
  | none => 0

/-- The link field of a codeword (R216). -/
def linkField (seq ack : Byte) (nak : Bool) (side : Nat) : BitVec 20 :=
  BitVec.ofNat 20 (seq.toNat + ack.toNat * 2 ^ 8 + nak.toNat * 2 ^ 16 + side * 2 ^ 17)

/-- The SIDE bits of every trained lane in that group. -/
def Link.sides (l : Link) (now j : Nat) : List Nat := (List.range l.lanes.length).map (l.sideBits now j)

/-- The codewords of a group: each trained lane's link field and data, with idle bytes after the group's own. -/
def Link.codewords (l : Link) (g : HeldGroup) : List (BitVec 20 × Bytes) :=
  let w := l.lanes.length
  let full := g.data ++ List.replicate (l.groupBytes - g.data.length) 0
  (List.range w).map fun i => (linkField g.seq l.rxSeq l.nak (g.side.getD i 0), laneData w i full)

/-- A group of idle data: it repeats the last SEQ and is not held (R219). -/
def Link.idleGroup (l : Link) (now : Nat) : HeldGroup := { seq := l.txSeq - 1, resent := 0, side := l.sides now 0 }

/-- Send some groups of a link one after the other. -/
def State.sendGroups (n : Nat) (gs : List HeldGroup) (s : State) : State :=
  s.each gs fun s g => s.emit (.group n ((s.link n).codewords g))

/-! ## The retry buffer of 128 groups (R219) -/

/-- Groups of new data that go out now: as many as the retry buffer has room for. -/
def Link.ready (l : Link) : List TxGroup := l.unsent.take (128 - l.held.length)

/-- The ready groups with the next SEQs. -/
def Link.numbered (l : Link) (now : Nat) : List HeldGroup :=
  l.ready.zipIdx.map fun e => ⟨l.txSeq + BitVec.ofNat 8 e.2, 0, e.1.data, l.sides now e.2⟩

def Link.tookReady (now : Nat) (l : Link) : Link :=
  { l with txSeq := l.txSeq + BitVec.ofNat 8 l.ready.length, held := l.held ++ l.numbered now, unsent := l.unsent.drop (128 - l.held.length) }

/-- What a link sends now: its ready groups; with nothing new, or no room in the retry buffer, an idle group (R219; log entry 135). -/
def Link.outgoing (l : Link) (now : Nat) : List HeldGroup := if l.ready.isEmpty then [l.idleGroup now] else l.numbered now

/-- An item whose last group has gone out. -/
def State.itemSent (n : Nat) (s : State) : LinkItem → State
  | .packet p _ => s.emit (.packet n p)
  | .slot start x => s.emit (.slot n start x)
  | .share _ => s

/-- A link that is UP sends what it can; it holds the rest (R219, R225). -/
def State.pump (n : Nat) (s : State) : State :=
  let l := s.link n
  if l.state = .up then
    let now := 10 * s.clock.uptime
    ((s.onLink n (Link.tookReady now)).sendGroups n (l.outgoing now)).each (l.ready.filter fun g => g.last) fun s g => s.itemSent n g.item
  else s

/-- The groups of `size` bytes of some data of an item; `first` and `last` say whether they hold its ends. -/
def cutGroups (size : Nat) (item : LinkItem) (first last : Bool) (data : Bytes) : List TxGroup :=
  let parts := chunks size (data.length + 1) data
  parts.zipIdx.map fun e => { data := e.1, item, first := first && decide (e.2 = 0), last := last && decide (e.2 + 1 = parts.length) }

/-- The groups of an item's bytes on a link. -/
def Link.cut (l : Link) (item : LinkItem) (data : Bytes) : List TxGroup := cutGroups l.groupBytes item true true data

/-- Groups not sent yet, cut anew for groups of `size` bytes, item by item; `seen` holds the item's earlier groups, newest first. -/
def recutGroups (size : Nat) : List TxGroup → List TxGroup → List TxGroup
  | _, [] => []
  | seen, g :: t =>
    if g.last then
      cutGroups size g.item ((g :: seen).getLast?.any fun x => x.first) true ((g :: seen).reverse.flatMap fun x => x.data) ++
        recutGroups size [] t
    else recutGroups size (g :: seen) t

/-- Hand an item to a link's transmitter, which is busy with it for some fabric cycles from `from_` on (0.01 ns of meridian time). -/
def State.transmit (n : Nat) (item : LinkItem) (data : Bytes) (from_ cycles : Nat) (s : State) : State :=
  (s.onLink n fun l =>
    { l with unsent := l.unsent ++ l.cut item data, busyUntil := max l.busyUntil from_ + 64 * cycles }).pump n

/-- Groups held after SEQ `ack`. -/
def Link.heldAfter (l : Link) (ack : Byte) : List HeldGroup :=
  match l.held.findIdx? fun h => h.seq = ack with
  | some i => l.held.drop (i + 1)
  | none => l.held

/-- Resend every held group after SEQ `ack`, in order and before any new group (R219, R225). -/
def State.resendAfter (n : Nat) (ack : Byte) (s : State) : State :=
  let gs := (s.link n).heldAfter ack
  (s.onLink n fun l =>
    { l with held := gs.map fun h => { h with resent := h.resent + 1 }, retries := satAdd l.retries gs.length }).sendGroups n gs

/-- After retraining to another width, what was held after the far end's RESUME and what waits is cut anew and sent in order, the held data
first, with the SEQs after RESUME (R217, R225; log entry 136). -/
def Link.recutAfter (resume : Byte) (l : Link) : Link :=
  let kept := l.heldAfter resume
  { l with
    held := [], txSeq := resume + 1, retries := satAdd l.retries kept.length
    unsent := recutGroups l.groupBytes [] (kept.map (fun h => ⟨h.data, .share 0, true, true⟩) ++ l.unsent) }

/-- Both ends begin with SEQ 1 after training that is not in service (R222; log entry 136). -/
def Link.restart (l : Link) : Link :=
  { l with held := [], txSeq := 1, rxSeq := 0, unsent := recutGroups l.groupBytes [] l.unsent }

/-! ## The side stream (R218) -/

/-- The place of a message in the priority order. -/
def sideRank (m : BitVec 128) : Nat :=
  let t := natBits m.toNat 7 0
  if t = 1 then 0 else if t = 2 then 1 else if t = 4 then 2 else 3

/-- The message that is sent next: the first of the highest priority. -/
def nextSide (q : List (BitVec 128)) : Option (BitVec 128) :=
  q.foldl
    (fun (a : Option (BitVec 128)) m =>
      match a with
      | none => some m
      | some b => if sideRank m < sideRank b then some m else a) none

/-- A message is being sent. -/
def State.sideBusy (s : State) (n : Nat) : Bool :=
  (s.link n).sideNow.any fun e => decide (10 * s.clock.uptime < e.2 + 128 * (s.link n).sideGroups)

/-- Start the next message of a link's side stream at a group boundary, when none is being sent (log entry 124). -/
def State.pumpSide (n : Nat) (s : State) : State :=
  match nextSide (s.link n).sideQueue with
  | none => s
  | some m =>
    if s.sideBusy n then s
    else
      (s.onLink n fun l =>
        { l with sideQueue := dropFirst (fun x => x = m) l.sideQueue, sideNow := some (m, roundUp (10 * s.clock.uptime) 128) }).emit (.side n m)

/-- Give a message to a link's side stream. -/
def State.sendSide (n : Nat) (m : BitVec 128) (s : State) : State :=
  (s.onLink n fun l => { l with sideQueue := l.sideQueue ++ [m] }).pumpSide n

/-- Every link's side stream goes on. -/
def State.pumpSides (s : State) : State := s.each (s.links.map fun e => e.1) fun s n => s.pumpSide n

/-! ## Router ports -/

def State.out (s : State) (q : Nat) : OutPort := Tab.get {} q s.router.out

def State.onOut (q : Nat) (f : OutPort → OutPort) (s : State) : State :=
  s.onRouter fun r => { r with out := Tab.modify {} q f r.out }

/-- The link die of a port (R17). -/
def State.portDie (s : State) (q : Nat) : Nat :=
  match (List.range 24).find? fun n => (s.port q).links.getLsbD n with
  | some n => n / 4
  | none => 0

/-- Free buffers of a port's own input: three escape buffers for each virtual channel, two adaptive ones for VC0 and VC1 (R252). -/
def OutPort.escFree (o : OutPort) : List Nat := o.escUsed.map fun n => 3 - n
def OutPort.adpFree (o : OutPort) : List Nat := o.adpUsed.map fun n => 2 - n

/-- A packet takes a buffer of the input that it comes into. -/
def OutPort.takeBuffer (vc : Nat) (adaptive : Bool) (o : OutPort) : OutPort :=
  if adaptive then { o with adpUsed := setAt vc (o.adpUsed.getD vc 0 + 1) o.adpUsed }
  else { o with escUsed := setAt vc (o.escUsed.getD vc 0 + 1) o.escUsed }

/-- It leaves the buffer. -/
def OutPort.leaveBuffer (vc : Nat) (adaptive : Bool) (o : OutPort) : OutPort :=
  if adaptive then { o with adpUsed := setAt vc (o.adpUsed.getD vc 0 - 1) o.adpUsed }
  else { o with escUsed := setAt vc (o.escUsed.getD vc 0 - 1) o.escUsed }

/-- The credit flit of a port's own input (R257). -/
def State.sendCredits (q : Nat) (s : State) : State := s.emit (.credit q (s.out q).escFree (s.out q).adpFree)

/-- A packet of virtual channel `vc` leaves its input buffer: the credit it owed goes back in a credit flit (R257). -/
def State.freeBuffer (vc : Nat) (b : Option (Nat × Bool)) (s : State) : State :=
  match b with
  | none => s
  | some (q, adaptive) =>
    (s.onOut q (OutPort.leaveBuffer vc adaptive)).sendCredits q

/-- Stage a packet for a port. -/
def State.stage (q : Nat) (x : Staged) (s : State) : State :=
  s.onOut q fun o => { o with staged := o.staged ++ [{ x with counted := true }] }

/-- Credits that a packet needs downstream (R257, R258). -/
def bubble (entering : Bool) : Nat := if entering then 2 else 1

/-! ## Routing (R251 to R254) -/

/-- A packet that arrived on bearing `from_` (none: injected here) enters a ring when it leaves on bearing `b`. -/
def entersRing (from_ : Option Nat) (b : Nat) : Bool := from_ != some (opposite b)

/-- The axis and the bearing of a packet's deterministic step: a reversed packet keeps its way round the ring. -/
def detStep (r : Rings) (own : BitVec 48) (from_ : Option Nat) (p : Packet) : Option Nat :=
  (r.nextBearing own p.coord).map fun b =>
    if p.reversed.getLsbD (b / 2) then
      (match from_ with
        | some f => if f / 2 = b / 2 then opposite f else opposite b
        | none => opposite b)
    else b

/-- The adaptive choice of R252: the reducing step with most free adaptive buffers downstream. A packet that came into an escape buffer has
none, and neither has an ordered one. -/
def State.adaptiveStep (s : State) (own : BitVec 48) (x : Staged) : Option (Nat × Nat) :=
  let p := x.packet
  if p.ordered || 2 ≤ p.vc.toNat || x.buffer.any fun b => !b.2 then none
  else
    ((s.rings.reducing own p.coord).filter fun b => !p.reversed.getLsbD (b / 2)).foldl
      (fun (best : Option (Nat × Nat × Nat)) b =>
        match s.bondedPort b with
        | none => best
        | some q =>
          let free := (s.out q).adp.getD p.vc.toNat 0
          if free < bubble (entersRing x.from_ b) then best
          else
            match best with
            | some y => if y.2.2 < free then some (b, q, free) else best
            | none => some (b, q, free)) none |>.map fun y => (y.1, y.2.1)

/-- PATH_LOST (R254): the packet leaves its buffer. -/
def State.losePacket (b : Nat) (x : Staged) (s : State) : State :=
  ((s.onRouter fun r => { r with pathsLost := satInc r.pathsLost }).note .pathLost
    (srcLinkDie ((s.portAt b).map s.portDie |>.getD 0))).freeBuffer x.packet.vc.toNat x.buffer

/-- A transit packet goes on: FORWARDED counts it (R264). -/
def State.countForward (x : Staged) (s : State) : State :=
  if x.from_.isSome && !x.counted then s.onRouter fun r => { r with forwarded := satInc r.forwarded } else s

/-- A packet takes its deterministic step: to its port, or the other way round a ring whose port is not bonded (R251, R254). -/
def State.stepOn (x : Staged) (s : State) : State :=
  match detStep s.rings s.ownCoord x.from_ x.packet with
  | none => s.freeBuffer x.packet.vc.toNat x.buffer
  | some b =>
    match s.bondedPort b with
    | some q => (s.countForward x).stage q { x with entering := entersRing x.from_ b, adaptive := false }
    | none =>
      if s.rings.isLine (b / 2) || x.packet.reversed.getLsbD (b / 2) then s.losePacket b x
      else
        let s := s.onRouter fun r => { r with reversals := satInc r.reversals }
        match s.bondedPort (opposite b) with
        | some q =>
          (s.countForward x).stage q
            { x with packet := sealHeader { x.packet with reversed := x.packet.reversed ||| BitVec.ofNat 6 (2 ^ (b / 2)) }, entering := true, adaptive := false }
        | none => s.losePacket b x

/-- Route a packet of another module onward (R251 to R254). -/
def State.forward (x : Staged) (s : State) : State :=
  match s.adaptiveStep s.ownCoord x with
  | some (b, q) => (s.countForward x).stage q { x with entering := entersRing x.from_ b, adaptive := true }
  | none => s.stepOn x

/-- A packet at the router: ejected here, or sent on. -/
def State.route (from_ : Option Nat) (buffer : Option (Nat × Bool)) (p : Packet) (s : State) : State :=
  if p.coord = s.ownCoord then (s.onRouter fun r => { r with ejected := satInc r.ejected }).freeBuffer p.vc.toNat buffer
  else s.forward { packet := p, entering := true, adaptive := false, from_, buffer }

/-- A network interface injects a packet (log entry 9). -/
def State.inject (p : Packet) (s : State) : State :=
  ((s.emit (.inject p)).onRouter fun r => { r with injected := satInc r.injected }).route none none p

/-! ## Broadcast (R256) -/

/-- A frame-abort with no lower f_o than one already forwarded for its job and ATTEMPT is not forwarded. What a payload that fails its CRC says
counts for nothing (R366). -/
def State.oldAbort (s : State) (p : Packet) : Bool :=
  field p.payload 0 1 = kindFrameAbort && packetPayloadOk p &&
    s.router.aborts.any fun e => e.1 = p.jobTag.toNat && e.2.1 = p.attempt.toNat && e.2.2 ≤ field p.payload 8 8

/-- Note the f_o of a frame-abort that is forwarded. -/
def State.noteAbort (p : Packet) (s : State) : State :=
  if field p.payload 0 1 ≠ kindFrameAbort || !packetPayloadOk p then s
  else
    let e := (p.jobTag.toNat, p.attempt.toNat, field p.payload 8 8)
    s.onRouter fun r => { r with aborts := e :: r.aborts.filter fun x => !(x.1 = e.1 && x.2.1 = e.2.1) }

/-- Copies of a broadcast to the bonded ports below this module in its tree, from an entry of the replication buffer; the input buffer is free
at once. -/
def State.copyOut (from_ : Option Nat) (buffer : Option (Nat × Bool)) (p : Packet) (s : State) : State :=
  let outs := (s.rings.forward p.coord s.ownCoord).filterMap fun b => (s.bondedPort b).map fun q => (b, q)
  let id := s.router.nextCopy
  let s := s.onRouter fun r =>
    { r with nextCopy := id + 1, copies := if outs.isEmpty then r.copies else r.copies ++ [{ id, left := outs.length }] }
  let s := s.each outs fun s e =>
    let x : Staged := { packet := p, entering := entersRing from_ e.1, adaptive := false, from_, copy := some id }
    (s.countForward x).stage e.2 x
  s.freeBuffer p.vc.toNat buffer

/-- A broadcast is sent on; with all 64 entries of the replication buffer in use it waits in its input buffer. -/
def State.replicate (from_ : Option Nat) (buffer : Option (Nat × Bool)) (p : Packet) (s : State) : State :=
  if s.oldAbort p then s.freeBuffer p.vc.toNat buffer
  else if 64 ≤ s.router.copies.length then
    (s.noteAbort p).onRouter fun r => { r with copyWait := r.copyWait ++ [(from_, buffer, p)] }
  else (s.noteAbort p).copyOut from_ buffer p

/-- A copy has left: an entry with no copy left goes to the broadcast that has waited longest. -/
def State.copyLeft (c : Option Nat) (s : State) : State :=
  match c with
  | none => s
  | some id =>
    let s := s.onRouter fun r =>
      { r with copies := (r.copies.map fun x => if x.id = id then { x with left := x.left - 1 } else x).filter fun x => x.left ≠ 0 }
    match s.router.copyWait with
    | [] => s
    | (from_, buffer, p) :: rest =>
      if s.router.copies.length < 64 then (s.onRouter fun r => { r with copyWait := rest }).copyOut from_ buffer p else s

/-- This module broadcasts a payload on VC3 (R239, R256): in both directions of every axis, as its tree says. -/
def State.broadcast (jobTag : BitVec 16) (attempt : Byte) (payload : Bytes) (s : State) : State :=
  let p := sealPacket
    { type := 6, vc := 3, jobTag, coord := s.ownCoord, attempt, srcCore := 127, srcRank := BitVec.ofNat 17 ((s.topo.gaz.map fun g => g.selfRank).getD 0)
      msgBytes := BitVec.ofNat 32 payload.length, payload }
  (s.onRouter fun r => { r with injected := satInc r.injected }).replicate none none p

/-- The control dies send a control packet of TYPE 0x5 to a coordinate (R239, R318). -/
def State.control (vc : BitVec 2) (jobTag : BitVec 16) (attempt : Byte) (dest : BitVec 48) (payload : Bytes) (s : State) : State :=
  s.each (cutMessage 4096
    { type := 5, vc, jobTag, coord := dest, attempt, srcCore := 127, srcRank := BitVec.ofNat 17 ((s.topo.gaz.map fun g => g.selfRank).getD 0) } payload)
    fun s p => (s.onRouter fun r => { r with injected := satInc r.injected }).route none none p

/-! ## A port that no longer carries data (R254, R265) -/

/-- The packets staged at a port take another way, in their order; copies of broadcasts are given up. -/
def State.flushPort (q : Nat) (s : State) : State :=
  let l := (s.out q).staged
  (s.onOut q fun o => { o with staged := [] }).each l fun s x => if x.packet.type = 6 then s.copyLeft x.copy else s.forward { x with adaptive := false }

/-- A port is no longer bonded: its credits are gone, and the packets staged there take another way (R254, R257). -/
def State.unbond (q : Nat) (s : State) : State :=
  (s.onOut q fun o => { o with esc := [0, 0, 0, 0], adp := [0, 0] }).flushPort q

/-- Packets of which a link has sent nothing, oldest first, with the bearings they came by. Copies of broadcasts are given up. -/
def Link.unsentPackets (l : Link) : List (Packet × Option Nat) :=
  l.unsent.filterMap fun g =>
    match g.first, g.item with
    | true, .packet p from_ => if p.type = 6 then none else some (p, from_)
    | _, _ => none

/-- A link's groups, new data and side messages are discarded. -/
def Link.emptied (l : Link) : Link :=
  { l with held := [], unsent := [], resume := none, sideQueue := [], sideNow := none, busyUntil := 0 }

end Sys2Proof.Machine
end

