-- ==== Sys2Proof/Machine/Frames.lean ====
section
/-! DEFINITION. Frames of the bound job: plans in frames (R44, R150), overruns and frame-aborts (R42, R49, R50),
the ends of dispatches and suspension (R51, R309). -/
namespace Sys2Proof.Machine

/-! ## Frame arithmetic (R38, R41) -/

/-- The tick of job frame `f`. -/
def Bind.tick (b : Bind) (f : Int) : Int := (b.baseTick : Int) + f * b.period

/-- The deadline of job frame `f`. -/
def Bind.deadline (b : Bind) (f : Int) : Int := b.tick (f + 1) - b.guardNs

/-- The job frame index at meridian value `m`. -/
def Bind.frameAt (b : Bind) (m : Nat) : Int := ((m : Int) - b.baseTick) / b.period

/-- The frame in progress as a natural number; no plan work lies before frame 0. -/
def Job.now (j : Job) : Nat := j.frame.toNat

/-- The tag of the bound job; 0 when none is bound. -/
def State.jobTag (s : State) : BitVec 16 :=
  match s.job.bind with
  | some b => b.jobTag
  | none => 0

def State.horizon (s : State) : Nat :=
  match s.job.bind with
  | some b => b.horizon
  | none => 0

/-! ## Plans in frames -/

def State.resident (s : State) (slot : Nat) : Option Resident := (Tab.get {} slot s.job.slots).plan

/-- The plan of a dispatch: none where another has taken its slot since its phase was over (R282). -/
def State.planOf (s : State) (d : Dispatch) : Option Resident := if d.was.isSome then none else s.resident d.slot

/-- The variant that runs at contour `c`: the lowest present one not below it (R150). -/
def Plan.variantAt (p : Plan) (c : Nat) : Option Variant := p.variants.find? fun v => c ≤ v.contour

/-- The variant of a dispatch; before its cut, variant 0. -/
def State.variantOf (s : State) (d : Dispatch) : Option Variant :=
  (s.planOf d).bind fun r => r.plan.variantAt (d.contour.getD 0)

/-- Frames of a dispatch. -/
def State.framesOf (s : State) (d : Dispatch) : Nat :=
  match s.variantOf d with
  | some v => v.frames
  | none => 0

/-- Frame `f` is one of the dispatch's. -/
def State.covers (s : State) (d : Dispatch) (f : Nat) : Bool :=
  decide (d.first ≤ f) && decide (f < d.first + s.framesOf d)

/-- The first dispatch of a step. -/
def Job.firstOf (j : Job) (step : Word) : Option Dispatch :=
  (j.dispatches.filter fun d => d.step = step).foldl
    (fun (a : Option Dispatch) d =>
      match a with
      | none => some d
      | some e => if d.first < e.first then some d else a) none

/-- The macro-op counts that frame `i` of a variant gives the strands of `block` in `role`: strand and count. -/
def Variant.cutsAt (v : Variant) (role block i : Nat) : List (Nat × Nat) :=
  (v.cuts.filter fun c => c.role = role && c.block = block && c.frame = i).map fun c => (c.strand, c.count)

/-- The plan, its variant and the frame of the plan that run in the frame in progress. -/
def State.runningPlan (s : State) : Option (Resident × Variant × Nat) :=
  s.job.running.bind fun d =>
    (s.planOf d).bind fun r =>
      (s.variantOf d).map fun v => (r, v, s.job.now - d.first)

/-- The frame in progress carries plan work. -/
def State.hasWork (s : State) : Bool :=
  match s.job.attempt, s.job.running with
  | some a, some _ => a.window.isNone && a.stopFrom.all fun f => decide (s.job.now < f)
  | _, _ => false

/-- The deadline of the frame in progress has not come (R41, R53). -/
def State.beforeDeadline (s : State) : Bool :=
  match s.job.bind with
  | some b => decide (s.clock.meridian + b.guardNs < s.job.tickAt + b.period)
  | none => true

/-- The work window of the frame in progress is open for issue (R59). -/
def State.issueOpen (s : State) : Bool := s.job.open_ && s.hasWork && s.beforeDeadline

/-! ## Overrun and frame-abort -/

/-- ATTEMPT of R247. -/
def State.attemptTag (s : State) : Byte := BitVec.ofNat 8 s.job.attempts

/-- The frame that the counter stands in: the one in progress, or a later one whose tick has not been taken yet (R53). -/
def State.frameNow (s : State) : Nat :=
  match s.job.bind with
  | some b => max s.job.now (b.frameAt s.clock.meridian).toNat
  | none => s.job.now

/-- A frame-abort at `fo` is known in frame `now`: the lowest f_o counts, and issue stops from the next tick (R50). -/
def State.knowAbortAt (now fo : Nat) (s : State) : State :=
  s.onJob fun j =>
    { j with attempt := j.attempt.map fun a =>
        { a with
          abortFo := some (match a.abortFo with
            | none => fo
            | some g => min g fo)
          stopFrom := some (match a.stopFrom with
            | none => now + 1
            | some f => f) } }

/-- A frame-abort at `fo` becomes known in the frame in progress. -/
def State.knowAbort (fo : Nat) (s : State) : State := s.knowAbortAt s.job.now fo

/-- Broadcast frame-abort for a step (R49). -/
def State.sendAbort (step : Word) (fo : Nat) (s : State) : State :=
  let s := (s.emit (.frameAbort s.jobTag step s.attemptTag fo)).broadcast s.jobTag s.attemptTag (abortBytes step fo)
  (s.onJob fun j => { j with aborts := satInc j.aborts }).note .frameAbort srcModule

/-- An overrun at a local clock slower than the job's ends fallback for the rest of the binding (R343); DETAIL is the cause. -/
def State.endFallback (s : State) : State :=
  if s.power.fallback && s.job.contour < s.power.localContour then
    (s.onPower fun p => { p with fallback := false, fallbackBarred := true }).note .fallbackEnd srcModule 1
  else s

/-- The frame in progress is treated as overrun: OVERRUNS counts it once, and the first overrun of the attempt is broadcast
(R49). -/
def State.overrun (s : State) : State :=
  let s :=
    if s.job.overrunSeen then s
    else (s.onJob fun j => { j with overruns := satInc j.overruns, overrunSeen := true }).endFallback
  match s.job.attempt with
  | none => s
  | some a =>
    if a.abortFo.isSome then s
    else
      let s := (s.knowAbort s.job.now).sendAbort a.step s.job.now
      s.onJob fun j => { j with attempt := j.attempt.map fun a => { a with abortSent := true } }

/-- A late dispatch's frame f − 1 is treated as overrun (R44). For f = 0 there is no such job frame; the f_o sent is then 0, which is the
model's choice (log entry 111). -/
def State.lateOverrun (step : Word) (f : Nat) (s : State) : State :=
  let s := s.onJob fun j => { j with overruns := satInc j.overruns }
  match s.job.attempt with
  | none => s.sendAbort step (f - 1)
  | some a => if a.abortFo.isSome then s else (s.knowAbort (f - 1)).sendAbort a.step (f - 1)

/-- The vote of the running attempt carries INTEGRITY (R317). -/
def State.voteIntegrity (s : State) : State :=
  s.onJob fun j => { j with attempt := j.attempt.map fun a => { a with integrity := true } }

/-- Stop issue on every strand of core `p` for the rest of the frame. -/
def State.stopCore (p : Nat) (s : State) : State :=
  s.onCore p fun c =>
    { c with
      stopped := true
      strands := c.strands.map fun e => (e.1, if e.2.work then { e.2 with st := .halted } else e.2) }

/-- A check on core `p` failed: its issue stops and the frame is overrun at once. -/
def State.coreOverrun (p : Nat) (s : State) : State := (s.stopCore p).overrun

/-- Broadcast PEER_LOST naming a coordinate (R255). -/
def State.sendLost (c : BitVec 48) (s : State) : State :=
  (s.emit (.peerLost s.jobTag c s.job.now)).broadcast s.jobTag s.attemptTag (coordBytes kindPeerLost c s.job.now)

/-- Broadcast a seal message (R318). -/
def State.sealAll (kind : Nat) (m : SealMsg) (s : State) : State :=
  (s.emit (.broadcast kind m)).broadcast m.jobTag s.attemptTag (sealBytes kind m)

/-- Send a seal message to the module at `dest` through the port of its route (R318). -/
def State.sealTo (q : Nat) (dest : BitVec 48) (kind : Nat) (m : SealMsg) (s : State) : State :=
  (s.emit (.sealUp q kind m)).control 3 m.jobTag s.attemptTag dest (sealBytes kind m)

/-- The running attempt holds a PEER_LOST notice (R305). -/
def State.holdLost (c : BitVec 48) (frame : Nat) (s : State) : State :=
  let s := s.onTopo fun t =>
    { t with notices := if t.notices.contains (c, frame) then t.notices else t.notices ++ [(c, frame)] }
  s.onJob fun j => { j with attempt := j.attempt.map fun a => { a with lost := if a.lost.contains (c, frame) then a.lost else a.lost ++ [(c, frame)] } }

/-! ## Retries (R51) -/

/-- Attempts at a step that count. -/
def Job.triesAt (j : Job) (step : Word) : Nat :=
  match j.tries.find? fun e => e.1 = step with
  | some e => e.2
  | none => 0

def Job.countTry (step : Word) (n : Nat) (j : Job) : Job :=
  { j with tries := (step, j.triesAt step + n) :: j.tries.filter fun e => e.1 ≠ step }

/-- The running attempt is a retry. -/
def State.retrying (s : State) : Bool := s.job.attempt.any fun a => decide (1 < s.job.triesAt a.step)

/-! ## Ends of dispatches -/

/-- The FLOODs of these phases are forgotten: their PHASE_SEQ may come again modulo 65,536 (R43, R46). -/
def Job.dropFloods (seqs : List Nat) (j : Job) : Job :=
  let clear := fun (t : Table Nat) => seqs.foldl (fun t q => Tab.set 0 q 0 t) t
  { j with floods := clear j.floods, neighbours := j.neighbours.map fun e => (e.1, { e.2 with floods := clear e.2.floods }) }

/-- End every dispatch that satisfies `p` with a status. -/
def State.endDispatches (p : Dispatch → Bool) (status detail : Nat) (s : State) : State :=
  let gone := s.job.dispatches.filter p
  let s := s.onJob fun j => { j with dispatches := j.dispatches.filter fun d => !p d }
  let seqs := (gone.map fun d => d.phaseSeq.toNat).filter fun q => s.job.dispatches.all fun d => d.phaseSeq.toNat ≠ q
  (s.onJob (Job.dropFloods seqs)).each gone fun s d => s.complete 1 d.tag status detail

/-- The binding's work stops: strands end, the attempt is dropped. -/
def State.stopWork (s : State) : State :=
  let halt := fun (t : Table Strand) => t.map fun x => (x.1, { x.2 with st := .halted, work := false })
  (s.onJob fun j => { j with attempt := none, running := none }).onCores fun t =>
    t.map fun e =>
      (e.1, if e.2.scoreboard then { e.2 with saved := e.2.saved.map fun v => (v.1, halt v.2) } else { e.2 with strands := halt e.2.strands })

/-- The job is suspended until the host acts: its dispatches complete with 0x020C, but for those whose step is decided (R51, R309). -/
def State.suspendJob (s : State) : State :=
  (s.endDispatches (fun d => !d.done) 0x020C 0).stopWork.onJob fun j => { j with suspended := true }

/-- Suspend the job: the dispatches that `p` picks complete with `status` (R51, R157). -/
def State.suspend (p : Dispatch → Bool) (status detail : Nat) (s : State) : State :=
  (s.endDispatches (fun d => p d && !d.done) status detail).suspendJob

/-- Suspend with JOB_SUSPENDED (R309). -/
def State.suspendLost (s : State) : State := (s.note .jobSuspended srcModule).suspendJob

end Sys2Proof.Machine
end

