-- ==== Sys2Proof/Config.lean ====
section
/-! DEFINITION. The values the manual leaves open, as constants without a body: nothing in Lean can see what they
are, so a statement that mentions one holds whatever it is. -/
namespace Sys2Proof.Config

/-- A fresh unspecified byte: the n-th the machine draws (State.free counts them).
Used for the bytes of D after a check-column mismatch or a core reset (R95, R104). Log entry 11. -/
opaque freeByte (n : Nat) : Byte

/-- Array cycles for which a matrix macro-op was held (R90): timing, which the model does not carry. Log entry 114. -/
opaque freeHolds (n : Nat) : Nat

/-- Bytes of the working copy of a job's member part at a stage, which no rule gives (R303). Log entry 91. -/
opaque workingCopy (jobTag : BitVec 16) (member stage : Nat) : Nat

/-- Bytes that a request takes in a detour queue beside its write data, which R200 does not give. Log entry 121. -/
opaque detourRequest : Nat

/-- A scale code that a copy of rows leaves open, because the rows of a block come from different blocks or do not fill it: by the scale codes of the
source, the rows copied (destination and source row), and the place in the scale plane (R78). Log entry 34. -/
opaque freeScale (scales : List (List Nat)) (rows : List (Nat × Option Nat)) (row col : Nat) : Byte

/-- The signature the security engine makes over a record with the identity key: ECDSA draws a random
nonce, so the manual fixes no value (R284, R422, R427). Log entry 12. -/
opaque signature (n : Nat) (record : Bytes) : BitVec 512

/-- The bytes the dump engine records for a unit: the manual gives their sizes and subjects, no layout
(R376). Log entry 19. -/
opaque dumpByte (seq offset : Nat) : Byte

/-- A unit's record in a dump holds a word with bad parity or poison (R375). Log entry 19. -/
opaque dumpMarked (seq unit : Nat) : Bool

/-- The UDP source port of a tunnel: a hash of the job tag and the virtual channel whose function the
manual does not give (R234). Log entry 11. -/
opaque tunnelSourcePort (jobTag : BitVec 16) (vc : BitVec 2) : BitVec 16

/-- The INT32 absolute value of −2^31, which the manual does not state (R124, R126). Log entry 11. -/
opaque absMin : Word

/-- The DER bytes of the fused identity certificates (R421). -/
opaque certificate (index : Nat) : Bytes

end Sys2Proof.Config
end

