-- ==== Sys2Proof/Machine/Memory.lean ====
section
/-! DEFINITION. Memory: the interleave (R191, R192), the one address space of `State.mem`, poison (R197, R213), the sheet
directory (R313 to R316) and the layout of a tensor's slice (R446).

`State.mem` holds every byte by a key. An arena's byte is keyed by its physical place (hub, hub channel, row, byte); hub caches, tile stores,
constant copies, code lines and sheet areas have key ranges of their own, and `State.physKey` gives the physical place of those that lie in
HBM (log entries 13 and 137). Poison stands by physical place. A key that is not listed reads as 0 (log entry 5). -/
namespace Sys2Proof.Machine

/-! ## Interleave -/

/-- The xor of a number's 7-bit pieces (R191). -/
def fold7From : Nat → Nat → Nat
  | 0, _ => 0
  | n + 1, r => if r = 0 then 0 else Nat.xor (r % 128) (fold7From n (r / 128))

def fold7 (r : Nat) : Nat := fold7From 10 r

/-- The xor of a number's 3-bit pieces (R191). -/
def xor3From : Nat → Nat → Nat
  | 0, _ => 0
  | n + 1, g => if g = 0 then 0 else Nat.xor (g % 8) (xor3From n (g / 8))

/-- The hub, hub channel and row of spread offset `a` (R191). -/
def spreadPlace (a : Nat) : Nat × Nat × Nat :=
  let g := a / 4096
  let grp := g / 8
  let row := grp / 93
  (xor3From 22 g, (grp + fold7 row) % 93, row)

/-- The hub channel and row of near offset `a` with boundary `rs` (R192). -/
def nearPlace (rs a : Nat) : Nat × Nat :=
  let g := a / 4096
  ((g + fold7 (g / 93)) % 93, rs + g / 93)

/-! ## Keys -/

/-- The key of a byte of HBM: 524,288 rows of 4 KiB on each of 93 channels of each hub (R190). -/
def hbmKey (h k row byte : Nat) : Nat := ((h * 93 + k) * 524288 + row) * 4096 + byte

/-- The end of the HBM keys. -/
def hbmEnd : Nat := 744 * 524288 * 4096

/-- The key of byte `o` of hub `h`'s cache (R207). -/
def hubcKey (h o : Nat) : Nat := 2 ^ 48 + h * 2 ^ 25 + o

/-- The key of byte `o` of physical core `p`'s tile store (R73). -/
def tileKey (p o : Nat) : Nat := 2 ^ 49 + p * 2 ^ 23 + o

/-- The keys of byte `o` of hub `h`'s turn buffer (R212), and of the queued write data of its detour queue (R200): their blocks carry check
bits too (R196). -/
def turnKey (h o : Nat) : Nat := 2 ^ 50 + h * 2 ^ 23 + o
def detourKey (h o : Nat) : Nat := 2 ^ 51 + h * 2 ^ 22 + o

/-- The key of byte `o` of hub `h`'s copy of the constants of resident slot `slot` (R135). -/
def constKey (h slot o : Nat) : Nat := 2 ^ 52 + (h * 16 + slot) * 2 ^ 40 + o

/-- The key of byte `o` of a code line of physical core `p` (R79). -/
def codeKey (p line o : Nat) : Nat := 2 ^ 60 + (p * 2 ^ 20 + line) * 2048 + o

def hubcBytes : Nat := 32 * 2 ^ 20
def tileBytes : Nat := 6 * 2 ^ 20

/-- The directory key of granule `g` of a slice (R314); `buddy` 1 names the buddy areas. -/
def dirKey (tensor slot variant buddy g : Nat) : Nat :=
  (((tensor * 2 ^ 17 + slot) * 2 ^ 13 + variant) * 2 + buddy) * 2 ^ 40 + g

/-- The parts of a directory key: tensor, slot, variant, buddy, granule. -/
def dirParts (k : Nat) : Nat × Nat × Nat × Nat × Nat :=
  let g := k % 2 ^ 40
  let r := k / 2 ^ 40
  (r / 2 / 2 ^ 13 / 2 ^ 17, r / 2 / 2 ^ 13 % 2 ^ 17, r / 2 % 2 ^ 13, r % 2, g)

/-- The key of the first byte of area `area` of a granule. -/
def areaKey (dk area : Nat) : Nat := 2 ^ 100 + (2 * dk + area) * 4096

/-! ## Bytes -/

/-- The canonical form of memory: addresses strictly rising, and no byte listed at the value an unlisted address reads as. -/
def Memory.wf (m : List Host.Cell) : Bool := Tab.wf 0 m

/-- The byte at a key. -/
def State.byteAt (s : State) (k : Nat) : Byte := Tab.get 0 k s.mem

/-- The run of `n` bytes from a key. -/
def State.bytesAt (s : State) (k n : Nat) : Bytes := Tab.getRun 0 k n s.mem

/-! ## Tensor slices (R446) -/

/-- Bytes of a packed row of `c` elements (R109). -/
def packedRow (fmt c : Nat) : Nat :=
  if fmtBits fmt = 6 then ceilDiv (6 * c) 24 * 3 else ceilDiv (fmtBits fmt * c) 8

/-- RS and RS_32 of a tensor. -/
def Tensor.rowStride (t : Tensor) : Nat := roundUp (packedRow t.fmt t.cols) 64
def Tensor.stateStride (t : Tensor) : Nat := roundUp (4 * t.cols) 64

/-- Bytes of the parameter part, of one state and of the counts. -/
def Tensor.paramBytes (t : Tensor) : Nat := t.rows * t.rowStride
def Tensor.stateBytes (t : Tensor) : Nat := t.rows * t.stateStride
def Tensor.countBytes (t : Tensor) : Nat := 4 * (if t.tableRows then t.rows else 1)

/-- The offset of a part in the slice: 0 the parameter, 1 to 4 the states, 5 the counts. -/
def Tensor.partOffset (t : Tensor) (part : Nat) : Nat :=
  let p := roundUp t.paramBytes 4096
  let q := roundUp t.stateBytes 4096
  if part = 0 then 0
  else if part ≤ 4 then p + (part - 1) * q
  else p + t.states * q

def Tensor.partBytes (t : Tensor) (part : Nat) : Nat :=
  if part = 0 then t.paramBytes else if part ≤ 4 then t.stateBytes else t.countBytes

/-- Bytes of one slice of one variant copy. -/
def Tensor.sliceBytes (t : Tensor) : Nat :=
  t.partOffset 5 + roundUp t.countBytes 4096

/-- Granules of one slice. -/
def Tensor.granules (t : Tensor) : Nat := t.sliceBytes / 4096

def State.tensor? (s : State) (id : Nat) : Option Tensor := s.job.tensors.find? fun t => t.id = id

/-! ## Allocation in a hub's near range (R190, R313, R425; log entry 13) -/

/-- Bytes of hub `h`'s near range. -/
def State.nearBytes (s : State) : Nat := 93 * (524288 - s.rowSplit) * 4096

/-- Areas of a granule: two of its own and two of its buddy for a versioned tensor (R313). -/
def Tensor.areas (t : Tensor) : Nat := if t.versioned then 4 else 1

/-- Bytes a registered tensor takes in its hub's near range, for `slots` local shard slots. -/
def Tensor.nearBytes (t : Tensor) (slots : Nat) (digests : Bool) : Nat :=
  let copies := slots * t.nslots
  copies * (t.areas * t.sliceBytes + (if t.versioned then 2 * 4 * t.granules else 0) +
    (if digests && t.versioned then 64 * t.granules else 0))

/-- Local shard slots of the chart in force. -/
def State.shardSlots (s : State) : Nat :=
  match s.topo.chart with
  | some c => 2 ^ c.spmLog2
  | none => 1

/-- The binding keeps sheet digests (R424, R425). -/
def State.cartoucheBound (s : State) : Bool :=
  match s.job.bind with
  | some b => b.cartouche
  | none => false

/-- Bytes of the inset arena in hub `h`'s near range. -/
def State.insetBytes (s : State) (h : Nat) : Nat :=
  match s.job.arenas.inset with
  | some (ih, n) => if ih = h then n else 0
  | none => 0

/-- Bytes that some tensors take in a near range. -/
def State.tensorBytes (s : State) (ts : List Tensor) : Nat :=
  (ts.map fun t => t.nearBytes s.shardSlots s.cartoucheBound).sum

/-- Bytes of the constants of a slot's plan. -/
def PlanSlot.constBytes (x : PlanSlot) : Nat :=
  match x.plan with
  | some r => (r.plan.constants.getD []).length
  | none => 0

/-! ## Code regions (R79, R80) -/

/-- Lines of one code region. -/
def regionLines : Nat := 8192

/-- The region in which a plan's code lies (log entry 49). -/
def Resident.home (r : Resident) : Nat := (r.lines.map fun e => e.2 / regionLines).foldl max 0

/-- The regions in use: slots that share a body share its code (R161). -/
def State.codeHomes (s : State) : List Resident :=
  (s.job.slots.filterMap fun e => e.2.plan).foldl (fun l r => if l.any fun q => q.home = r.home then l else l ++ [r]) []

/-- The code in hub `h`'s near range, in the order it is placed: region, physical core and lines (R79, R190). -/
def State.codeParts (s : State) (h : Nat) : List (Nat × Nat × Nat) :=
  s.codeHomes.flatMap fun r => (r.code.filter fun e => hubOf e.1 = h).map fun e => (r.home, e.1, e.2)

/-- Bytes that lines of code take: whole granules. -/
def codeRoom (lines : Nat) : Nat := roundUp (2048 * lines) 4096

/-- Bytes allocated from the bottom of hub `h`'s near range: arenas, tensors, constant copies and code. -/
def State.nearLow (s : State) (h : Nat) : Nat :=
  Tab.get 0 h s.job.arenas.near + s.insetBytes h + s.tensorBytes (s.job.tensors.filter fun t => t.hub = h) +
  (s.job.slots.map fun e => e.2.constBytes).sum + ((s.codeParts h).map fun x => codeRoom x.2.2).sum

/-- Rows of each channel that the crash-dump region takes, at the top of its hub's near range (R375). -/
def dumpRows : Nat := 705

/-- Bytes allocated in hub `h`'s near range, the dump region with them. -/
def State.nearUsed (s : State) (h : Nat) : Nat := s.nearLow h + (if s.dump.region = some h then dumpRows * 93 * 4096 else 0)

/-- Near offset of the storage of tensors in hub `h`: after its arenas. -/
def State.tensorsAt (s : State) (h : Nat) : Nat := roundUp (Tab.get 0 h s.job.arenas.near) 4096 + roundUp (s.insetBytes h) 4096

/-- Near offset of the storage of tensor `id`, and the tensor. -/
def State.tensorAt (s : State) (id : Nat) : Option (Nat × Tensor) :=
  (s.tensor? id).map fun t =>
    (s.tensorsAt t.hub + s.tensorBytes ((s.job.tensors.takeWhile fun x => x.id ≠ id).filter fun x => x.hub = t.hub), t)

/-- Near offset in hub `h` of the constants of slot `slot`: after the tensors. -/
def State.constAt (s : State) (h slot : Nat) : Nat :=
  s.tensorsAt h + roundUp (s.tensorBytes (s.job.tensors.filter fun t => t.hub = h)) 4096 +
    ((s.job.slots.filter fun e => decide (e.1 < slot)).map fun e => roundUp e.2.constBytes 4096).sum

/-- Near offset in hub `h` of the code of region `home` for physical core `p`: after the constants; none where no resident plan has it. -/
def State.codeAt (s : State) (home p : Nat) : Option Nat :=
  let h := hubOf p
  let l := s.codeParts h
  if l.any fun x => x.1 = home && x.2.1 = p then
    some (s.constAt h 16 + ((l.takeWhile fun x => !(x.1 = home && x.2.1 = p)).map fun x => codeRoom x.2.2).sum)
  else none

/-- The hub and near offset of a granule's area: copy by copy, then area by area. -/
def State.areaAt (s : State) (dk area : Nat) : Nat × Nat :=
  let (id, slot, variant, buddy, g) := dirParts dk
  match s.tensorAt id with
  | some (base, t) => (t.hub, base + (((slot * t.nslots + variant) * t.areas + 2 * buddy + area) * t.granules + g) * 4096)
  | none => (0, 0)

/-- Near offset of a granule in row `row` of hub channel `c` (R192, read backwards). -/
def State.nearOffset (s : State) (c row : Nat) : Nat :=
  let r := row - s.rowSplit
  (93 * r + (c + 93 * 2 - fold7 r % 93) % 93) * 4096

/-- The key of byte `o` of hub `h`'s near range, where it lies in an area of a tensor's granule. -/
def State.sheetKeyAt (s : State) (h o : Nat) : Option Nat :=
  s.job.tensors.findSome? fun t =>
    if t.hub ≠ h then none
    else
      (s.tensorAt t.id).bind fun e =>
        let rel := o - e.1
        let copy := rel / 4096 / t.granules
        let variant := copy / t.areas
        if e.1 ≤ o && decide (rel < s.shardSlots * t.nslots * t.areas * t.granules * 4096) then
          some (areaKey (dirKey t.id (variant / t.nslots) (variant % t.nslots) (copy % t.areas / 2) (rel / 4096 % t.granules)) (copy % t.areas % 2) + rel % 4096)
        else none

/-- The HBM key of byte `o` of hub `h`'s near range. -/
def State.nearKey (s : State) (h o : Nat) : Nat :=
  let (k, row) := nearPlace s.rowSplit (o % max 4096 s.nearBytes)
  hbmKey h k row (o % 4096)

/-- The physical place of a key: its HBM key for what lies in HBM, the key itself for the rest. -/
def State.physKey (s : State) (k : Nat) : Nat :=
  if 2 ^ 100 ≤ k && k < 2 ^ 101 then
    let a := (k - 2 ^ 100) / 4096
    let (h, o) := s.areaAt (a / 2) (a % 2)
    s.nearKey h (o + k % 4096)
  else if 2 ^ 52 ≤ k && k < 2 ^ 60 then
    let c := (k - 2 ^ 52) / 2 ^ 40
    s.nearKey (c / 16) (s.constAt (c / 16) (c % 16) + (k - 2 ^ 52) % 2 ^ 40)
  else if 2 ^ 60 ≤ k && k < 2 ^ 61 then
    let line := (k - 2 ^ 60) / 2048
    let p := line / 2 ^ 20
    match s.codeAt (line % 2 ^ 20 / regionLines) p with
    | some at_ => s.nearKey (hubOf p) (at_ + line % regionLines * 2048 + k % 2048)
    | none => k
  else k

/-- The hub, the hub channel and the block within the channel of an HBM key. -/
def hbmParts (k : Nat) : Nat × Nat × Nat :=
  (k / 4096 / 524288 / 93, k / 4096 / 524288 % 93, k / 64 % (524288 * 64))

/-- The rows of a channel of hub `h` that hold allocated granules, in increasing order, as runs of first row and count: of the spread range, of
the near range, and of the dump region (R191, R192, R375). -/
def State.allocatedRows (s : State) (h : Nat) : List (Nat × Nat) :=
  [(0, ceilDiv (s.job.arenas.spread.getD 0) (744 * 4096)), (s.rowSplit, ceilDiv (s.nearLow h) (93 * 4096)),
    (524288 - dumpRows, if s.dump.region = some h then dumpRows else 0)].filter fun e => e.2 ≠ 0

/-- The `n`-th row of some runs of rows; after the last of them, the row behind it. -/
def nthRow : List (Nat × Nat) → Nat → Nat
  | [], _ => 0
  | [e], n => e.1 + min n e.2
  | e :: t, n => if n < e.2 then e.1 + n else nthRow t (n - e.2)

/-- The row that a repair's copy works on: the allocated rows in increasing order, at the 96 GB/s of the channel, which is 96 B each ns
(R202; log entry 122). -/
def State.copyRow (s : State) (h : Nat) (r : Repair) : Nat := nthRow (s.allocatedRows h) (96 * (s.clock.uptime - r.started) / 4096)

/-- The copy has passed the row: the spare serves it (R202). -/
def State.rowCopied (s : State) (h : Nat) (r : Repair) (row : Nat) : Bool := decide (row < s.copyRow h r)

/-! ## Poison (R197, R203, R213) -/

/-- The block of HBM key `k` lies on a channel that failed without a readable copy, and nothing has rewritten it (R201, R203). -/
def State.blindAt (s : State) (k : Nat) : Bool :=
  decide (k < hbmEnd) &&
    (let (h, c, b) := hbmParts k
     (s.hub h).blind.any fun e => e.1 = c && !e.2.contains b)

/-- The 64-byte block of key `k` is poisoned. -/
def State.poisonedAt (s : State) (k : Nat) : Bool :=
  let p := s.physKey k
  Tab.get false (p / 64) s.poison || s.blindAt p

/-- Some block of the run of `n` bytes from `k`, inside one granule, is poisoned. -/
def State.runPoisoned (s : State) (k n : Nat) : Bool :=
  let p := s.physKey k
  (s.poison.any fun e => e.2 && decide (p < 64 * e.1 + 64) && decide (64 * e.1 < p + n)) ||
    (decide (p < hbmEnd) && (List.range (n / 64 + 2)).any fun i =>
      decide (64 * (p / 64 + i) < p + n) && s.blindAt (64 * (p / 64 + i)))

/-- Mark the block of key `64 * b` poisoned (R197). -/
def State.poisonBlock (b : Nat) (s : State) : State := s.onPoison (Tab.set false (s.physKey (64 * b) / 64) true)

/-! ## Writing -/

/-- A repair and a blind channel's blocks after blocks `lo` to `hi` − 1 of the channel are written whole: a block of a row that the copy has
passed goes to the spare, and one of the row being copied waits for it to be done and goes there too (R202). -/
def Repair.wrote (copied : Bool) (c lo hi : Nat) (r : Repair) : Repair :=
  if r.chan = c && !r.blind && copied then { r with written := r.written ++ (List.range (hi - lo)).map fun i => lo + i } else r

/-- Blocks `lo` to `hi` − 1 of the channel are written whole: readable again, unless the repair still serves the row from the failed channel
(R202, R203). -/
def State.rewritten (h c lo hi : Nat) (s : State) : State :=
  let v := s.hub h
  let copied := v.repair.any fun r => decide (lo / 64 ≤ s.copyRow h r)
  let failed := v.repair.any (fun r => r.chan = c && !copied) || v.repairQueue.any fun r => r.chan = c
  if failed then s
  else
    s.onHub h fun v =>
      { v with
        repair := v.repair.map (Repair.wrote copied c lo hi)
        blind := v.blind.map fun e => if e.1 = c then (e.1, e.2 ++ (List.range (hi - lo)).map fun i => lo + i) else e }

/-- The channel takes no request for the row now: it retrains (R200), or the row is being copied and the request is a write (R202). -/
def State.detours (s : State) (h c row : Nat) (write : Bool) : Bool :=
  let v := s.hub h
  v.retraining == some c || (write && v.repair.any fun r => r.chan = c && row == s.copyRow h r)

/-- Bytes of a hub's detour queue in use. -/
def Hub.detourFill (v : Hub) : Nat := (v.detour.map fun d => d.data.length + Config.detourRequest).sum

/-- A request joins the detour queue of 4 MiB, or its unit keeps it where the queue is full (R200). -/
def Hub.detourRequest (d : Detour) (v : Hub) : Hub :=
  if 2 ^ 22 < v.detourFill + d.data.length + Config.detourRequest then { v with turnedAway := v.turnedAway + 1 }
  else { v with detour := v.detour ++ [d] }

/-- The requests that still wait in hub `h`'s detour queue: writes to a row that the copy has passed have gone to the spare (R202). -/
def State.queuedAt (s : State) (h : Nat) : List Detour :=
  (s.hub h).detour.filter fun d => !((s.hub h).repair.any fun r => r.chan = d.chan && s.rowCopied h r (d.addr / 4096 % 524288))

/-- A request for HBM key `k` whose channel takes none now waits at hub `h`; the largest fill is kept in units of 256 B for each of the
hub's stacks (R200, R206). -/
def State.detourRequest (k : Nat) (data : Bytes) (write : Bool) (s : State) : State :=
  let (h, c, b) := hbmParts k
  if s.detours h c (b / 64) write then
    let s := s.onHub h fun v => Hub.detourRequest ⟨c, k, data⟩ { v with detour := s.queuedAt h }
    let fill := ceilDiv (s.hub h).detourFill 256
    s.each [3 * h, 3 * h + 1, 3 * h + 2] fun s t =>
      s.onStack t fun v => { v with detourPeak := BitVec.ofNat 24 (max v.detourPeak.toNat fill) }
  else s

/-- What a write to HBM does beside storing its bytes. A write that waits in the detour queue is seen by every later request, so its bytes
stand in memory at once (R200, log entry 121). -/
def State.hbmWritten (k : Nat) (data : Bytes) (s : State) : State :=
  if k < hbmEnd then
    let (h, c, _) := hbmParts k
    let base := k / 4096 / 524288 * 524288 * 64
    (s.rewritten h c (ceilDiv k 64 - base) ((k + data.length) / 64 - base)).detourRequest k data true
  else s

/-- Write a run of bytes inside one granule; a block written whole loses its poison (R197, R213). -/
def State.putBytes (k : Nat) (data : Bytes) (s : State) : State :=
  let p := s.physKey k
  ((s.onMem (Tab.setRun 0 k data)).onPoison (Tab.clear (ceilDiv p 64) ((p + data.length) / 64))).hbmWritten p data

/-- Set `n` bytes from `k` to 0. -/
def State.clearBytes (k n : Nat) (s : State) : State :=
  let p := s.physKey k
  (s.onMem (Tab.clear k (k + n))).onPoison (Tab.clear (p / 64) (ceilDiv (p + n) 64))

/-- Copy `n` bytes of one granule or of a tile store, and the poison of their blocks. -/
def State.copyBytes (src dst n : Nat) (s : State) : State :=
  let p := s.physKey src
  let q := s.physKey dst
  let cells := s.mem.filter fun c => decide (src ≤ c.1) && decide (c.1 < src + n)
  let marks := (s.poison.filter fun c => c.2 && decide (p / 64 ≤ c.1) && decide (c.1 < (p + n) / 64)).map fun c => c.1 - p / 64
  let blind := if p < hbmEnd then (List.range (n / 64)).filter fun i => s.blindAt (p + 64 * i) else []
  let s := s.clearBytes dst n
  let s := s.onMem fun m => cells.foldl (fun m c => Tab.set 0 (c.1 - src + dst) c.2 m) m
  s.onPoison fun m => (marks ++ blind).foldl (fun m i => Tab.set false (i + q / 64) true m) m

/-! ## The sheet directory (R314, R315) -/

/-- The low 24 bits of an epoch. -/
def lo24 (n : Nat) : Nat := n % 2 ^ 24

/-- The area that holds the current version, whether the other holds the previous one, and whether it holds a version of
the running attempt (R314). -/
def Hub.resolve (h : Hub) (e : DirEntry) : Bool × Bool × Bool :=
  let flipped := e.frs && e.epoch.toNat = lo24 h.commit && !h.rollback
  let prv := flipped || (e.prv && e.epoch.toNat = lo24 h.commit)
  let cur := if flipped then !e.cur else e.cur
  let prv := prv && h.released ≠ h.commit
  let (cur, prv) := if h.rollback && prv then (!cur, false) else (cur, prv)
  (cur, prv, e.frs && e.epoch.toNat = lo24 h.attempt && h.attempt ≠ h.commit)

/-- The hub that owns the tensor of a directory key. -/
def State.dirHub (s : State) (dk : Nat) : Nat :=
  match s.tensor? (dirParts dk).1 with
  | some t => t.hub
  | none => 0

/-- A directory entry as it reads (R314). In a buddy area a version not yet made current stays so until the copy is complete (R322), whatever the
hub's registers. -/
def State.resolve (s : State) (dk : Nat) : Bool × Bool × Bool :=
  let h := s.hub (s.dirHub dk)
  let e := Tab.get {} dk s.dir
  if (dirParts dk).2.2.2.1 = 0 then h.resolve e
  else
    let (cur, prv, _) := h.resolve { e with frs := false }
    (cur, prv, e.frs)

/-- The key of the current version of a granule. -/
def State.currentKey (s : State) (dk : Nat) : Nat := areaKey dk (s.resolve dk).1.toNat

/-- Read `n` bytes of a slice at `off`: the current version, whose granules may lie in either area (R315). -/
def State.readSheet (s : State) (tensor slot variant buddy : Nat) (off : Nat) : Nat → Bytes
  | 0 => []
  | n + 1 =>
    s.byteAt (s.currentKey (dirKey tensor slot variant buddy (off / 4096)) + off % 4096) ::
      s.readSheet tensor slot variant buddy (off + 1) n

/-- Some current granule of the run is poisoned within it. -/
def State.sheetPoisoned (s : State) (tensor slot variant buddy off n : Nat) : Bool :=
  (List.range (n / 4096 + 2)).any fun i =>
    let g := off / 4096 + i
    let lo := max off (g * 4096)
    let hi := min (off + n) ((g + 1) * 4096)
    lo < hi &&
      s.runPoisoned (s.currentKey (dirKey tensor slot variant buddy g) + (lo - g * 4096)) (hi - lo)

/-- Pieces of the run [off, off + n) that stay inside one 4 KiB granule: offset and length. -/
def granulePieces (off : Nat) : Nat → Nat → List (Nat × Nat)
  | 0, _ => []
  | _, 0 => []
  | fuel + 1, n =>
    let len := min n (4096 - off % 4096)
    (off, len) :: granulePieces (off + len) fuel (n - len)

/-- Pieces of a run. -/
def pieces (off n : Nat) : List (Nat × Nat) := granulePieces off (n / 4096 + 2) n

/-- Write to the current version of a slice, as the host does before the first dispatch (R404). -/
def State.writeCurrent (tensor slot variant buddy off : Nat) (data : Bytes) (s : State) : State :=
  s.each (pieces off data.length) fun s p =>
    s.putBytes (s.currentKey (dirKey tensor slot variant buddy (p.1 / 4096)) + p.1 % 4096)
      ((data.drop (p.1 - off)).take p.2)

/-- A fresh write inside one granule (R315); none when its other area holds a previous version. -/
def State.freshPiece (dk at_ : Nat) (data : Bytes) (s : State) : Option State :=
  let hub := s.hub (s.dirHub dk)
  let (cur, prv, fresh) := s.resolve dk
  if fresh then some (s.putBytes (areaKey dk (!cur).toNat + at_) data)
  else if prv then none
  else
    let s := if data.length = 4096 then s else s.copyBytes (areaKey dk cur.toNat) (areaKey dk (!cur).toNat) 4096
    let e : DirEntry := { cur, prv := false, frs := true, epoch := BitVec.ofNat 24 hub.attempt }
    let s := s.onDir (Tab.set {} dk e)
    let s := s.onSealSt fun v =>
      { v with granules := if v.granules.contains dk then v.granules else dk :: v.granules }
    some (s.putBytes (areaKey dk (!cur).toNat + at_) data)

/-- A fresh write of a run of a slice; the second answer is false when a granule refused it. -/
def State.writeFresh (tensor slot variant buddy off : Nat) (data : Bytes) (s : State) : State × Bool :=
  (pieces off data.length).foldl
    (fun (acc : State × Bool) p =>
      match acc.1.freshPiece (dirKey tensor slot variant buddy (p.1 / 4096)) (p.1 % 4096)
        ((data.drop (p.1 - off)).take p.2) with
      | some t => (t, acc.2)
      | none => (acc.1, false))
    (s, true)

/-! ## Spaces (R135) -/

/-- A space with what places it: the physical core of TILE, the hub of NEAR and HUBC, the resident slot of CONST, the
tensor, local shard slot and variant of SHEET; a core reads the copy of the constants at its own hub. -/
inductive Area where
  | tile (p : Nat)
  | spread
  | near (h : Nat)
  | hubc (h : Nat)
  | const (slot h : Nat)
  | sheet (tensor slot variant : Nat)
  deriving DecidableEq, Repr

/-- The constants of the plan in a resident slot. -/
def State.constants (s : State) (slot : Nat) : Bytes :=
  match (Tab.get {} slot s.job.slots).plan with
  | some r => r.plan.constants.getD []
  | none => []

/-- The size of an area in bytes: 0 where there is none. -/
def State.areaSize (s : State) : Area → Nat
  | .tile _ => tileBytes
  | .spread => s.job.arenas.spread.getD 0
  | .near h => Tab.get 0 h s.job.arenas.near
  | .hubc _ => hubcBytes
  | .const slot _ => (s.constants slot).length
  | .sheet t _ _ =>
    match s.tensor? t with
    | some t => t.paramBytes
    | none => 0

/-- The key of byte `off` of an area. -/
def State.areaByteKey (s : State) (a : Area) (off : Nat) : Nat :=
  match a with
  | .tile p => tileKey p off
  | .spread =>
    let (h, k, row) := spreadPlace off
    hbmKey h k row (off % 4096)
  | .near h =>
    let (k, row) := nearPlace s.rowSplit off
    hbmKey h k row (off % 4096)
  | .hubc h => hubcKey h off
  | .const slot h => constKey h slot off
  | .sheet t slot v => s.currentKey (dirKey t slot v 0 (off / 4096)) + off % 4096

/-- Read `n` bytes of an area. -/
def State.readArea (s : State) (a : Area) (off n : Nat) : Bytes :=
  match a with
  | .sheet t slot v => s.readSheet t slot v 0 off n
  | a => (pieces off n).flatMap fun p => s.bytesAt (s.areaByteKey a p.1) p.2

/-- Write bytes to an area that is no sheet. -/
def State.writeArea (a : Area) (off : Nat) (data : Bytes) (s : State) : State :=
  s.each (pieces off data.length) fun s p =>
    s.putBytes (s.areaByteKey a p.1) ((data.drop (p.1 - off)).take p.2)

/-- Some block of the run of an area is poisoned. -/
def State.areaPoisoned (s : State) (a : Area) (off n : Nat) : Bool :=
  match a with
  | .sheet t slot v => s.sheetPoisoned t slot v 0 off n
  | a => (pieces off n).any fun p => s.runPoisoned (s.areaByteKey a p.1) p.2

end Sys2Proof.Machine
end

