-- ==== Sys2Proof/Machine/Window.lean ====
section
/-! DEFINITION. The host window as software reads it: the identity block (R387), the state summary (R388), the step
parameter page (R167) and the blocks of the telemetry mirror (R37, R206, R226, R231, R236, R264, R297, R330, R350, R379, R391). -/
namespace Sys2Proof.Machine

/-! ## Laying fields out -/

/-- Replace the bytes of `bs` from `off` on. -/
def splice (bs : Bytes) (off : Nat) (b : Bytes) : Bytes :=
  bs.take off ++ b ++ bs.drop (off + b.length)

/-- `n` bytes with the given runs; all other bytes are reserved and 0. -/
def layout (n : Nat) (runs : List (Nat × Bytes)) : Bytes :=
  runs.foldl (fun bs r => splice bs r.1 r.2) (List.replicate n 0)

/-- A little-endian field of `n` bytes at `off`. -/
def fld (off n v : Nat) : Nat × Bytes := (off, leBytes n v)

/-- A number from fields given as (lowest bit, value). -/
def bits (l : List (Nat × Nat)) : Nat := (l.map fun e => e.2 * 2 ^ e.1).sum

def bit1 (b : Bool) : Nat := b.toNat

/-- The low 16 bits of a signed reading (units of 0.125 °C). -/
def temp16 (t : Int) : Nat := unsigned 16 t

/-! ## Identity and state -/

/-- ASCII "HX-TQ4M-A1", zero-padded to 16 bytes (R387). -/
def partNumber : Bytes :=
  [0x48, 0x58, 0x2D, 0x54, 0x51, 0x34, 0x4D, 0x2D, 0x41, 0x31, 0, 0, 0, 0, 0, 0]

/-- LICENCES: bit KIND − 1 for each installed licence (R8, R387). -/
def State.licences (s : State) : Nat :=
  ([1, 2, 3, 4].map fun k => if (Tab.get [] k s.sec.licences).isEmpty then 0 else 2 ^ (k - 1)).sum

def State.licensed (s : State) (kind : Nat) : Bool := !(Tab.get [] kind s.sec.licences).isEmpty

/-- Logical cores not retired (R16). -/
def State.availableCores (s : State) : Nat := (s.coreMap.filter fun p => !(s.core p).retired).length

/-- FW_MEAS: zero while in boot ROM. -/
def State.fwMeas (s : State) : Bytes :=
  if s.dev.firmware then slice s.dev.fw.measurement 0 32 else List.replicate 32 0

/-- The identity block. -/
def State.identityBlock (s : State) : Bytes :=
  let fw := s.dev.firmware
  let f (n : Nat) : Nat := if fw then n else 0
  layout 256
    [fld 0 4 0x74041C4E,
     fld 4 4 (bits [(0, 0xA1), (8, f s.dev.fw.numrev.toNat), (16, s.dev.fw.mboxVersions.toNat),
       (24, f s.dev.fw.hetchLevels.toNat)]),
     (0x08, partNumber), fld 0x18 16 s.fuses.serial.toNat, fld 0x28 32 s.fuses.identityFp.toNat, (0x48, s.fwMeas),
     fld 0x68 4 (f s.dev.fw.version.toNat), fld 0x6C 4 s.fuses.romVersion.toNat,
     fld 0x70 4 (bits [(0, f s.licences), (8, f s.dev.fw.fabricMin.toNat), (16, f s.dev.fw.fabricMax.toNat)]),
     fld 0x74 4 (bits [(0, s.coreMap.length), (8, s.availableCores)])]

/-- The device state and event summary. -/
def State.stateBlock (s : State) : Bytes :=
  layout 256
    [fld 0x00 4 (bits
       [(0, s.dev.state.code), (4, bit1 s.dev.degraded), (5, bit1 s.dev.firmware), (6, bit1 s.job.bind.isSome),
        (7, bit1 s.job.suspended), (8, s.dev.heldCause.toNat), (16, s.jobTag.toNat)]),
     fld 0x04 4 (if s.cofin.up then s.cofin.gen.toNat else 0),
     fld 0x08 8 s.clock.uptime,
     fld 0x10 4 (2 * s.regs.eventPending.toNat), fld 0x14 4 (2 * s.regs.eventIrqEn.toNat),
     fld 0x18 4 s.log.lastEvent.toNat, fld 0x1C 4 s.log.lastSeq.toNat,
     fld 0x20 8 s.regs.eventIrqAddr.toNat, fld 0x28 4 s.regs.eventIrqData.toNat, fld 0x2C 4 s.dev.stateChanges.toNat]

/-- The step parameter page with its RO fields (R167). -/
def State.pageBytes (s : State) : Bytes :=
  Tab.getRun 0 0 0xE0 s.regs.page ++
    layout 32
      [fld 0x00 4 s.regs.lossScale.toNat, fld 0x04 4 s.regs.invLossScale.toNat, fld 0x08 4 s.regs.goodSteps.toNat,
       fld 0x0C 4 s.regs.skips.toNat, fld 0x10 4 s.regs.latchedStep.toNat, fld 0x14 4 s.regs.lastDecision.toNat]

/-! ## The telemetry mirror -/

/-- The R33 bound in units of 0.01 ns; 0 while the depth is unknown. R33 holds while the counter is locked; the value shown in another
lock state is the model's choice: the same (log entry 111). -/
def State.meridianBound (s : State) : Nat := if s.mer.depth = 0xFF then 0 else 28 * s.mer.depth.toNat + 200

/-- NBR_MAX: the largest offset measured on a link in the last ms, in 0.01 ns. -/
def State.neighbourMax (s : State) : Nat :=
  ((s.mer.offsets.filterMap fun e => e.2).map fun o => if s.clock.uptime ≤ o.2 + 1000000 then o.1.natAbs else 0).foldl max 0

def State.meridianBlock (s : State) : Bytes :=
  let (p, g) := match s.job.bind with
    | some b => (b.period, b.guardNs)
    | none => (0, 0)
  layout 64
    [fld 0x00 8 s.clock.meridian,
     fld 0x08 4 (bits [(0, s.mer.lock.toNat), (2, bit1 s.mer.root), (8, s.mer.depth.toNat), (16, s.meridianBound)]),
     fld 0x0C 4 (s.upstreamPorts.foldl (fun (a : BitVec 24) q => a ||| (s.port q).links) 0).toNat,
     fld 0x10 4 (bits [(0, min 0xFFFF s.neighbourMax), (16, min 0xFFFF s.mer.unlocks.toNat)]),
     fld 0x14 4 p, fld 0x18 4 g, fld 0x20 8 (unsigned 64 s.job.frame),
     fld 0x28 4 s.job.overruns.toNat, fld 0x2C 4 s.job.slips.toNat, fld 0x30 4 s.job.slotLates.toNat,
     fld 0x34 4 s.job.aborts.toNat]

/-- The spare channel of stack `t` by its fuses (R189). -/
def State.spareOf (s : State) (t : Nat) : Nat := Tab.get 31 t s.fuses.spareChannel

/-- The physical channel of a logical channel: the other 31 in increasing order, or the spare after a repair (R189). -/
def State.physChannel (s : State) (t logical : Nat) : Nat :=
  let v := s.stack t
  if v.spareUsed && v.replaced.toNat = logical then s.spareOf t
  else if logical < s.spareOf t then logical else logical + 1

def Heat.code : Heat → Nat
  | .normal => 0
  | .warm => 1
  | .hot => 2
  | .critical => 3

/-- The channels of stack `t` in a list of hub channels, as a mask of physical channels. -/
def State.channelMask (s : State) (t : Nat) (ks : List Nat) : Nat :=
  ((ks.filter fun k => k / 31 = t % 3).map fun k => 2 ^ s.physChannel t (k % 31)).sum

/-- COPY_PCT: how much of the allocated rows a repair's copy has passed, in whole percent (R202, R206). -/
def State.copyPct (s : State) (h : Nat) (r : Repair) : Nat :=
  let runs := s.allocatedRows h
  let row := s.copyRow h r
  let total := (runs.map fun e => e.2).sum
  let passed := (runs.map fun e => min e.2 (row - e.1)).sum
  if total = 0 then 100 else 100 * passed / total

def State.hbmRecord (s : State) (t : Nat) : Bytes :=
  let v := s.stack t
  let h := s.hub (hubOfStack t)
  layout 32
    [fld 0x00 4 (bits
       [(0, temp16 v.heat.temp), (16, v.heat.level.code), (18, bit1 (h.repair.any fun r => r.chan / 31 = t % 3)),
        (19, bit1 v.spareUsed), (20, s.spareOf t), (25, v.replaced.toNat)]),
     fld 0x04 4 v.corrected.toNat, fld 0x08 4 v.uncorrected.toNat, fld 0x0C 4 v.retrains.toNat,
     fld 0x10 4 (s.channelMask t (h.due.map fun e => e.1)), fld 0x14 4 (s.channelMask t h.overdue),
     fld 0x18 4 (bits [(0, ((h.repair.filter fun r => r.chan / 31 = t % 3).map (s.copyPct (hubOfStack t))).getD 0), (8, v.detourPeak.toNat)])]

def LinkState.code : LinkState → Nat
  | .disabled => 0
  | .dark => 1
  | .training => 2
  | .up => 3
  | .down => 4

def State.linkRecord (s : State) (m : Measured) (n : Nat) : Bytes :=
  let l := s.link n
  let up := l.state == .up
  let carries := up && (List.range 12).any fun q => (s.port q).state.bonded && (s.port q).bonded.getLsbD n
  let corrected := ((m.corrected.find? fun e => e.1.val = n).map fun e => e.2.toNat).getD 0
  let oe := ((m.oeTemp.find? fun e => e.1.val = n).map fun e => e.2.toNat).getD 0
  layout 32
    [fld 0x00 4 (bits
       [(0, l.state.code), (3, bit1 (up && l.wide)), (4, bit1 (up && !l.wide && l.pairB)), (5, l.lanesOk.toNat),
        (9, l.port.toNat), (13, bit1 carries)]),
     fld 0x04 4 corrected, fld 0x08 4 l.uncorrectable.toNat, fld 0x0C 4 l.retries.toNat, fld 0x10 4 l.berWorst.toNat,
     fld 0x14 4 (bits [(0, l.delay.toNat), (16, l.retrains.toNat)]), fld 0x18 4 oe]

def PortState.code : PortState → Nat
  | .unconfigured => 0
  | .down => 1
  | .narrow => 2
  | .full => 3
  | .held => 4
  | .surveyOnly => 5

/-- Bonded units of port `q` now (R229). -/
def State.unitsOfPort (s : State) (q : Nat) : Nat := ((s.bondedLinks q).map fun n => (s.link n).units).sum

def State.portRecord (s : State) (q : Nat) : Bytes :=
  let p := s.port q
  let count := ((List.range 24).filter fun n => p.links.getLsbD n).length
  layout 16
    [fld 0x00 4 (bits [(0, p.state.code), (4, p.bearing.toNat), (8, s.unitsOfPort q), (13, 2 * count)]),
     fld 0x04 4 p.links.toNat, fld 0x08 4 (if p.state.bonded then p.bonded.toNat else 0), fld 0x0C 4 p.level.toNat]

def State.gatewayRecord (s : State) (g : Nat) : Bytes :=
  let v := s.gw g
  layout 32
    [fld 0x00 4 (bits [(0, (s.gwState g).toNat), (8, v.powerClass.toNat)]), fld 0x04 4 v.fecUncorrected.toNat, fld 0x08 8 v.txBytes.toNat, fld 0x10 8 v.rxBytes.toNat,
     fld 0x18 4 (bits [(0, v.tunnels.length), (16, (v.qps.filter fun q => q.ready).length)])]

/-- Two bits of free buffers for each virtual channel, VC0 lowest. -/
def creditBits (l : List Nat) : Nat := (l.zipIdx.map fun e => min 3 e.1 * 4 ^ e.2).sum

def State.routerPort (s : State) (q : Nat) : Bytes :=
  let o := Tab.get {} q s.router.out
  layout 16
    [fld 0 4 (bits [(0, creditBits o.esc), (8, creditBits o.adp)]), fld 4 4 o.txPackets.toNat, fld 8 4 o.creditStalls.toNat,
     fld 12 4 o.spanIdle.toNat]

def State.routerBlock (s : State) : Bytes :=
  let r := s.router
  let epoch := match s.topo.gaz with
    | some g => g.epoch.toNat
    | none => 0
  layout 64
    [fld 0x00 4 r.forwarded.toNat, fld 0x04 4 r.injected.toNat, fld 0x08 4 r.ejected.toNat, fld 0x0C 4 r.bubbleWaits.toNat,
     fld 0x10 4 r.reversals.toNat, fld 0x14 4 r.pathsLost.toNat, fld 0x18 4 r.stale.toNat, fld 0x1C 4 r.sunk.toNat,
     fld 0x20 4 r.unmapped.toNat, fld 0x24 4 r.hcrcErrors.toNat, fld 0x28 4 epoch, fld 0x2C 4 r.slotSunk.toNat] ++
    (List.range 12).flatMap s.routerPort

/-- RESHAPE of R297. -/
def State.reshapeCode (s : State) : Nat :=
  if s.job.suspended then 5
  else if s.topo.switchAt.isSome then 4
  else if s.topo.window.isSome then 3
  else match s.topo.reshape with
    | some r => if r.opened.isSome then 2 else 1
    | none => 0

def State.surveyBlock (s : State) : Bytes :=
  let v := s.survey
  layout 64
    [fld 0x00 4 (bits
       [(0, v.state.toNat), (2, bit1 v.coord.isSome), (3, bit1 v.derived), (4, bit1 v.reoriented), (5, s.reshapeCode),
        (8, ([0, 1].map fun k => if s.topo.insets.any fun i => i.k = k then 2 ^ k else 0).sum)]),
     fld 0x04 6 (v.coord.getD 0).toNat, fld 0x0C 4 v.sheet.id.toNat,
     fld 0x10 4 (match s.topo.chart with
       | some c => c.epoch.toNat
       | none => 0),
     fld 0x14 4 v.surveys.toNat, fld 0x18 4 v.legendsBad.toNat, fld 0x1C 4 (ceilDiv s.topo.migOut.length 256),
     fld 0x20 6 s.topo.lostFirst.toNat, fld 0x28 1 s.topo.lostCount.toNat, fld 0x2C 4 v.seq.toNat]

def State.sealBlock (s : State) : Bytes :=
  let v := s.sealSt
  let h := s.hub 0
  layout 64
    [fld 0x00 4 h.attempt, fld 0x04 4 h.commit, fld 0x08 4 h.released, fld 0x0C 4 v.commitStep.toNat,
     fld 0x10 4 (bits
       [(0, bit1 h.rollback), (1, bit1 ((List.range 8).any fun i => (s.hub i).sweeping)), (2, bit1 v.copyOut.isSome),
        (3, bit1 v.copyIn.isSome), (16, v.lastCause.toNat)]),
     fld 0x14 4 ((v.copyOut.map fun e => ceilDiv (e.2.length - v.copySent) 256).getD 0), fld 0x18 4 v.buddyEpoch, fld 0x1C 4 v.sealNs.toNat, fld 0x20 4 v.commitsCount.toNat,
     fld 0x24 4 v.abortsCount.toNat, fld 0x28 4 v.rollbacks.toNat, fld 0x2C 4 v.restores.toNat]

/-- The dies in the order of their source units, with the keys of `Power.dies`. -/
def dieKeys : List Nat :=
  (List.range 16).map srcCompute ++ (List.range 8).map srcHub ++ (List.range 6).map srcLinkDie ++ [0x701, 0x702]

/-- The hottest die: its temperature and its source unit. -/
def Power.hottest (p : Power) : Int × Nat :=
  dieKeys.foldl
    (fun a k =>
      let t := (Tab.get {} k p.dies).temp
      if a.1 < t then (t, k) else a)
    ((Tab.get {} (srcCompute 0) p.dies).temp, srcCompute 0)

/-- The four learned energies of slot `k` at variant `c`; all ones for an absent variant (R350). -/
def State.energyWords (s : State) (k c : Nat) : Bytes :=
  match s.resident k with
  | some r =>
    match r.energies.find? fun e => e.1 = c with
    | some e => (List.range 4).flatMap fun i => leBytes 4 (min 0xFFFFFFFE (e.2.getD i 0))
    | none => List.replicate 16 0xFF
  | none => List.replicate 16 0xFF

/-- MEASURED: bit 4·k + c once variant c of slot k has run 8 frames (R337). -/
def State.measuredMask (s : State) : Nat :=
  ((List.range 4).map fun k =>
    match s.resident k with
    | some r => (r.measured.map fun e => if 8 ≤ e.2 then 2 ^ (4 * k + e.1) else 0).sum
    | none => 0).sum

def State.powerBlock (s : State) (m : Measured) : Bytes :=
  let p := s.power
  let (hot, unit) := p.hottest
  layout 32
    [fld 0x00 8 s.clock.energy.toNat,
     fld 0x08 4 (bits [(0, m.pIn.toNat), (16, p.capW)]), fld 0x0C 4 (bits [(0, m.vIn.toNat), (16, m.iIn.toNat)]),
     fld 0x10 4 (bits
       [(0, s.job.contour), (2, s.power.localContour), (4, bit1 p.floor), (5, bit1 (p.causes.contains .pin || s.mgmt.vrAlert)),
        (6, bit1 p.fallback), (7, bit1 p.capUnmet), (8, s.job.reqSent), (10, p.nPow), (12, p.thermal)]),
     fld 0x14 4 (bits [(0, temp16 hot), (16, unit)]), fld 0x18 4 p.contourChanges.toNat, fld 0x1C 4 p.alerts.toNat] ++
    (List.range 4).flatMap (fun i => leBytes 4 (p.framesAt.getD i 0).toNat) ++
    layout 16
      [fld 0 4 p.framesFloor.toNat, fld 4 4 p.deferred.toNat, fld 8 4 (bits [(0, m.inlet.toNat), (16, m.outlet.toNat)]),
       fld 12 4 s.measuredMask] ++
    (List.range 4).flatMap fun k => (List.range 4).flatMap fun c => s.energyWords k c

/-- SEQ of the oldest entry held in the ring; of the first-fault area while the ring is empty; 0 while the log is
empty (R379). -/
def EventLog.oldestSeq (l : EventLog) : Nat :=
  match l.ring.head?, l.first.head? with
  | some e, _ => e.seq.toNat
  | none, some e => e.seq.toNat
  | none, none => 0

/-- A TWIN plan is dispatched. -/
def State.twinActive (s : State) : Bool :=
  s.job.dispatches.any fun d => (s.planOf d).any fun r => r.plan.twin

def State.integrityBlock (s : State) : Bytes :=
  let v := s.integ
  let dead := fun n => (s.core (s.phys n)).retired
  layout 64
    [fld 0x00 4 (if s.log.first.isEmpty then 0 else s.log.lastSeq.toNat), fld 0x04 4 s.log.oldestSeq,
     fld 0x08 4 (bits
       [(0, v.lasting.toNat), (16, bit1 s.dev.degraded), (17, bit1 s.dump.held.isSome),
        (18, bit1 (s.dump.held.any fun r => r.summaryOnly)), (19, bit1 s.twinActive)]),
     fld 0x0C 4 (bits [(0, v.twinCores.toNat), (8, ((List.range s.coreMap.length).filter dead).length)]),
     fld 0x10 4 v.suspectFirst.toNat, fld 0x14 4 v.suspectLast.toNat, fld 0x18 4 v.passed.toNat, fld 0x1C 4 v.failed.toNat,
     fld 0x20 4 v.arrayChecks.toNat, fld 0x24 4 v.parityErrors.toNat, fld 0x28 4 v.payloadCrcs.toNat,
     fld 0x2C 4 v.hangRecoveries.toNat,
     fld 0x30 16 (((List.range s.coreMap.length).filter dead).map fun n => 2 ^ n).sum]

def TestState.code : TestState → Nat
  | .never => 0
  | .passed => 1
  | .running => 2
  | .failed => 3
  | .retired => 4

def State.testRecord (s : State) (n : Nat) : Bytes :=
  let t := (s.core (s.phys n)).test
  leBytes 4 (t.lastPass / 1000000) ++ leBytes 4 (bits [(0, t.state.code), (8, t.fails.toNat)])

def State.coreRecord (s : State) (p : Nat) : Bytes :=
  let c := s.core p
  leBytes 4 c.holds.toNat ++ leBytes 4 c.saturations.toNat ++ leBytes 4 (bits [(0, c.logical.toNat), (8, bit1 c.retired)]) ++
    leBytes 4 c.issued.toNat

def State.hubRecord (s : State) (h : Nat) : Bytes :=
  let v := s.hub h
  leBytes 4 v.saturations.toNat ++ leBytes 4 v.updateOps.toNat ++ leBytes 4 v.atomics.toNat ++ leBytes 4 0

/-- The offset and the bytes of a telemetry block at a refresh. -/
def State.renderBlock (s : State) (b : Block) (m : Measured) : Nat × Bytes :=
  match b with
  | .meridian => (0x2000, s.meridianBlock)
  | .hbm => (0x2400, (List.range 24).flatMap s.hbmRecord)
  | .link => (0x2800, (List.range 24).flatMap (s.linkRecord m))
  | .port => (0x2B00, (List.range 12).flatMap s.portRecord)
  | .gateway => (0x2C00, (List.range 2).flatMap s.gatewayRecord)
  | .router => (0x2D00, s.routerBlock)
  | .survey => (0x2E00, s.surveyBlock)
  | .seal => (0x2F00, s.sealBlock)
  | .power => (0x3000, s.powerBlock m)
  | .integrity => (0x3200, s.integrityBlock)
  | .fieldTest => (0x3300, (List.range 120).flatMap s.testRecord)
  | .coreMap => (0x3700, (List.range 128).map fun n => BitVec.ofNat 8 (if n < 120 then s.phys n else 0xFF))
  | .cores => (0x3800, (List.range 128).flatMap s.coreRecord)
  | .hubs => (0x4000, (List.range 8).flatMap s.hubRecord)

/-- Put bytes into the telemetry mirror. -/
def State.mirrorWrite (off : Nat) (data : Bytes) (s : State) : State :=
  s.onRegs fun r => { r with mirror := Tab.setRun 0 off data r.mirror }

/-- The telemetry mirror as the host reads it. -/
def State.mirrorBytes (s : State) (off n : Nat) : Bytes := Tab.getRun 0 off n s.regs.mirror

end Sys2Proof.Machine
end

