-- ==== Sys2Proof/Machine/HostWindow.lean ====
section
/-! DEFINITION. The host window as the host reads it (R386): which block holds an offset, the mailbox register blocks (R392), and the ranges that read
as zero (R12, R399). -/
namespace Sys2Proof.Machine

/-- The register block of mailbox `m`. RESET is done at once (R397), so it reads 0. -/
def State.mailboxBlock (s : State) (m : Nat) : Bytes :=
  let b := s.mbox m
  layout 256
    [fld 0x00 8 b.cmdBase.toNat, fld 0x08 8 b.cmpBase.toNat, fld 0x10 8 b.cmpShadow.toNat,
     fld 0x18 4 (bits [(0, b.cmdLog2.toNat), (4, b.cmpLog2.toNat), (8, b.version.toNat)]), fld 0x1C 4 (bits [(0, bit1 b.enable), (1, bit1 b.irqEn)]),
     fld 0x20 4 b.cmdTail.toNat, fld 0x24 4 b.cmdHead.toNat, fld 0x28 4 b.cmpTail.toNat, fld 0x2C 4 b.cmpHead.toNat,
     fld 0x30 8 b.irqAddr.toNat, fld 0x38 4 b.irqData.toNat, fld 0x3C 4 (bits [(0, b.irqCount.toNat), (16, b.irqDelayUs.toNat)]),
     fld 0x40 4 (bits
       [(0, bit1 (s.serviced m)), (1, bit1 b.ringError), (4, b.errorCause.toNat), (8, b.inFlightCount), (16, maxInFlight m)]),
     fld 0x44 4 (defaultTimeoutUs m), fld 0x48 4 b.completed.toNat]

/-- The byte at an offset of the window; a reserved one, and the range of mailbox 7, which belongs to the host adapter, are 0. -/
def State.windowByte (s : State) (off : Nat) : Byte :=
  if off < 0x100 then s.identityBlock.getD off 0
  else if off < 0x200 then s.stateBlock.getD (off - 0x100) 0
  else if off < 0x300 then s.pageBytes.getD (off - 0x200) 0
  else if 0x1000 ≤ off && off < 0x1700 then (s.mailboxBlock ((off - 0x1000) / 0x100)).getD (off % 0x100) 0
  else if 0x2000 ≤ off && off < 0x10000 then Tab.get 0 off s.regs.mirror
  else 0

/-- What a read of `n` bytes at an offset answers: one of any size or alignment the link does not carry reads as zero (R384). -/
def State.windowRead (s : State) (off n : Nat) : Bytes :=
  (List.range n).map fun i => if (n == 4 || n == 8) && off % n == 0 then s.windowByte (off + i) else 0

end Sys2Proof.Machine
end

