-- ==== Sys2Proof/Machine/Contour.lean ====
section
/-! DEFINITION. The phase learner's prices (R333, R337 to R339), the contour request (R340, R342), contour cuts (R46) and the entry to and
exit from fallback (R341). -/
namespace Sys2Proof.Machine

/-- The compute rail voltage of a contour in units of 0.01 V (R333). -/
def railVolts (c : Nat) : Nat := [80, 76, 70, 64].getD c 64

/-- The compute rails' voltage at a contour, in mV. -/
def cmpMillivolts (c : Nat) : Nat := 10 * railVolts c

/-! ## The array clock and the compute rails -/

/-- Switch the array clock (R47); the change is counted (R350). At the alert floor the contour is only the one that the clock returns to (R347,
R351). -/
def State.setClock (c : Nat) (s : State) : State :=
  if s.power.localContour = c then s
  else s.onPower fun p => { p with localContour := c, contourChanges := if p.floor then p.contourChanges else satInc p.contourChanges }

/-- The compute rails take the voltage of the array clock in use (R333, R47). -/
def State.settleVolts (s : State) : State :=
  if s.power.floor then s else s.onPower fun p => { p with cmpVolts := cmpMillivolts p.localContour }

/-- The alert floor is entered: its clock and voltage (R333, R347), and its counts (R350). -/
def Power.enterFloor (p : Power) : Power :=
  { p with floor := true, cmpVolts := 600, alerts := satInc p.alerts, contourChanges := satInc p.contourChanges }

/-- The floor is left: the clocks return to the contour in force, with the compute rails raised first (R347). -/
def State.leaveFloor (s : State) : State :=
  s.onPower fun p =>
    { p with floor := false, cmpVolts := cmpMillivolts p.localContour, holdEnd := none, holdDone := false, contourChanges := satInc p.contourChanges }

/-! ## The price of a phase -/

/-- The energies of a variant: compute, hubs, HBM, links. -/
def Resident.energy (r : Resident) (c : Nat) : List Nat :=
  match r.energies.find? fun e => e.1 = c with
  | some e => e.2
  | none => []

/-- The variant that was measured most recently (R337, R338). -/
def Resident.lastMeasured (r : Resident) : Option Nat := (r.measured.find? fun e => 8 ≤ e.2).map fun e => e.1

def Resident.isMeasured (r : Resident) (c : Nat) : Bool := r.measured.any fun e => e.1 = c && 8 ≤ e.2

def Resident.framesAt (r : Resident) (c : Nat) : Nat :=
  match r.plan.variants.find? fun v => v.contour = c with
  | some v => v.frames
  | none => 1

/-- The energy per frame at contour `c` as a fraction, numerator and denominator in µJ: the variant that would run, measured, or
derived from the one measured most recently (R338, R339). -/
def Resident.price (r : Resident) (c : Nat) : Nat × Nat :=
  let c := match r.plan.variantAt c with
    | some v => v.contour
    | none => c
  let own := r.energy c
  match r.lastMeasured with
  | none => (own.sum, 1)
  | some m =>
    if r.isMeasured c then (own.sum, 1)
    else
      let e := r.energy m
      let n := r.framesAt c
      let nm := r.framesAt m
      let v2 := railVolts m * railVolts m
      (e.getD 0 0 * nm * (railVolts c * railVolts c) + (e.getD 1 0 + e.getD 2 0) * nm * v2 + e.getD 3 0 * n * v2, n * v2)

/-- P of the binding in ns. -/
def State.period (s : State) : Nat :=
  match s.job.bind with
  | some b => b.period
  | none => 1

/-- P_in(c) plus `extra` W is at most `pct` percent of CAP_W (R338). -/
def State.priceFits (s : State) (r : Resident) (c pct extra : Nat) : Bool :=
  let (num, d) := r.price c
  let pd := s.period * d
  decide (100 * (1000 * (1000 * num + 110 * pd) + 923 * extra * pd) ≤ 923 * s.power.capW * pct * pd)

/-- N_pow of a plan's phase (R336, R339). -/
def State.powerNeed (s : State) (r : Resident) : Nat :=
  max s.power.raise (([0, 1, 2, 3].find? fun c => s.priceFits r c 100 0).getD 3)

/-! ## The request (R340, R342) -/

/-- The phase whose contour cut has not passed: the earliest. -/
def Job.nextCut (j : Job) : Option Dispatch :=
  (j.dispatches.filter fun d => !d.done && d.contour.isNone).foldl
    (fun (a : Option Dispatch) d =>
      match a with
      | none => some d
      | some e => if d.first < e.first then some d else a) none

/-- k of R342: the highest contour at which this module's rank keeps up. -/
def State.slackOf (s : State) (r : Resident) : Nat :=
  match s.topo.gaz with
  | some g => r.plan.slack.getD g.selfRank 0 % 4
  | none => 0

/-- The need N of a phase. -/
def State.needOf (s : State) (r : Resident) : Nat := max (s.powerNeed r) s.power.thermal

/-- REQ of a phase: the need; below the value last sent by one contour a cut, where the price leaves the hysteresis; 0 in fallback
while the slack covers the need (R340, R342). At the alert floor it is 3 (R347). -/
def State.requestOf (s : State) (r : Resident) : Nat :=
  let n := s.needOf r
  let sent := s.job.reqSent
  if s.power.floor then 3
  else if s.power.fallback && n ≤ s.slackOf r then 0
  else if sent ≤ n then n
  else if !s.job.fell && s.priceFits r (sent - 1) (100 - s.power.hystPct) 0 then sent - 1
  else sent

/-- The request as the deadline forms it; with no phase to price it does not fall. -/
def State.request (s : State) : Nat :=
  match s.job.nextCut.bind s.planOf with
  | some r => s.requestOf r
  | none => if s.power.floor then 3 else max s.job.reqSent (max s.power.raise s.power.thermal)

/-! ## Contour cuts -/

/-- The conditions of R341, counted at one cut. -/
def State.countNeed (r : Resident) (c : Nat) (s : State) : State :=
  let n := s.needOf r
  let s := s.onPower fun p =>
    { p with
      needHits := if 0 < n && n = c then p.needHits + 1 else 0
      needZeros := if n = 0 then p.needZeros + 1 else 0 }
  let p := s.power
  if p.fallback then
    if 3 ≤ p.needZeros then (s.onPower fun p => { p with fallback := false }).note .fallbackEnd srcModule else s
  else if p.fallbackEn && !p.fallbackBarred && 3 ≤ p.needHits && 2 ≤ r.plan.level && !r.plan.slack.isEmpty then
    (s.onPower fun p => { p with fallback := true }).note .fallbackStart srcModule
  else s

/-- The contour cut of one dispatch (R46): the highest FLOOD held, and no lower than a retry asks (R51). -/
def State.cut (s : State) (d : Dispatch) : State :=
  let vote := Tab.get 0 d.phaseSeq.toNat s.job.floods
  let c := min 3 (max d.floor vote)
  let s := s.onJob fun j =>
    { j with
      fell := false
      dispatches := j.dispatches.map fun e => if e = d then { e with contour := some c, voted := vote } else e }
  match s.planOf d with
  | some r => s.countNeed r c
  | none => s

/-- Every contour cut that is due by the frame in progress. -/
def State.cutsDue (s : State) : State :=
  let due := s.job.dispatches.filter fun d =>
    !d.done && d.contour.isNone && decide ((d.first : Int) - s.horizon ≤ s.job.frame)
  s.each due fun s d => s.cut d

end Sys2Proof.Machine
end

