-- ==== Sys2Proof/Machine/Reset.lean ====
section
/-! DEFINITION. Reset levels (R370, R371), the crash dump's start and end (R375 to R377, R380), FAULTED (R305, R390), hang
recovery (R373), retirement (R16, R369) and the loss of a power domain (R21). -/
namespace Sys2Proof.Machine

/-- The log entry of a reset: DETAIL [7:0] the level, [15:8] the cause (log entries 23 and 26). -/
def ResetLevel.code : ResetLevel → Nat
  | .core => 0
  | .cluster => 1
  | .partition => 2
  | .module => 3

/-- Causes of RESET: 2 and 3 are the manual's (R371, R435), the others the model's (log entry 26). -/
def causeHost : Nat := 0
def causeRetire : Nat := 1
def causeStale : Nat := 2
def causePin : Nat := 3
def causeHang : Nat := 4
def causeMismatch : Nat := 5
def causeWatchdog : Nat := 6
def causeOvervolt : Nat := 7
def causeRerun : Nat := 8

def State.logReset (l : ResetLevel) (src cause : Nat) (s : State) : State :=
  s.note .reset src (l.code + cause * 256)

/-! ## Cores -/

/-- Bytes whose values the manual leaves open take free values (R77, R370; log entry 11). -/
def State.freeRun (k n : Nat) (s : State) : State :=
  (s.putBytes k ((List.range n).map fun i => Config.freeByte (s.free + i))).onFree fun f => f + n

/-- Every write of a macro-op that did not complete stopped at some line boundary: its destination is open. -/
def State.freeDest (fl : List Flight) (s : State) : State :=
  s.each (fl.flatMap fun f => f.dest) fun s r => s.freeRun r.1 r.2

/-- A macro-op of core `p` gives its hub slot back, or no longer waits for one (R57). -/
def Hub.withdraw (p : Nat) (f : Flight) (v : Hub) : Hub :=
  { v with
    slots := if f.waits.isSome then v.slots else v.slots - 1
    waiting := v.waiting.filter fun w => w ≠ .entry p f.id
    turnQueue := v.turnQueue.filter fun e => e ≠ (p, f.id) }

/-- Give the hub slots of withdrawn macro-ops back. -/
def State.releaseSlots (p : Nat) (fl : List Flight) (s : State) : State :=
  s.each fl fun s f => s.each f.hub.toList fun s h => s.onHub h (Hub.withdraw p f)

/-- Tokens taken by macro-ops that have not completed go back to their wait queues (R370). -/
def returnTokens (fl : List Flight) (q : Table Nat) : Table Nat :=
  fl.foldl (fun q f => if f.takenN = 0 then q else Tab.modify 0 f.takenQ (fun n => min 64 (n + f.takenN)) q) q

/-- The strands that the job's frames work with: in scoreboard mode, those the core will return to (R72). -/
def Core.frameStrands (c : Core) : Table Strand := (c.saved.map fun v => v.2).getD c.strands

def Core.onFrameStrands (f : Table Strand → Table Strand) (c : Core) : Core :=
  match c.saved with
  | some v => { c with saved := some (v.1, f v.2) }
  | none => { c with strands := f c.strands }

/-- The running attempt needs what the core holds: work of the frame in progress or of a later one, or a replay's override (R187, R370). -/
def Core.needed (c : Core) : Bool :=
  c.worked || !c.overrides.isEmpty || c.frameStrands.any fun e => e.2.st ≠ .idle && e.2.st ≠ .planDone

/-- What a core keeps when all its state is lost: its numbers, its test record and its counts. The manual does not say that a reset in the middle
of an attempt keeps the sticky overflow flag; the model drops it with the rest (log entry 116). -/
def Core.killed (c : Core) : Core :=
  { logical := c.logical, retired := c.retired, test := c.test, saturations := c.saturations, holds := c.holds
    issued := c.issued, worked := c.worked, broken := c.broken || c.needed }

/-- A strand after a reset: IDLE, and still short of its FRAME_END when the frame gave it work (R42, R370). -/
def Strand.afterReset (x : Strand) : Strand := { work := x.work }

/-- A core after a core reset (R370): of one in scoreboard mode the queue counts kept are those it entered that mode with. -/
def Core.coreReset (c : Core) : Core :=
  { c.killed with
    queues := returnTokens c.flights ((c.saved.map fun v => v.1).getD c.queues), entry := c.entry
    strands := c.frameStrands.map fun e => (e.1, e.2.afterReset)
    nextId := c.nextId, nextMsg := c.nextMsg, inReset := true, stopped := true }

/-- A reset of `target` at level `l` takes in a reset in progress: of the same unit, or of a part of it. -/
def ResetRun.within (l : ResetLevel) (target : Nat) (r : ResetRun) : Bool :=
  (r.level = l && r.target = target) || (l = .partition && (r.level = .core || r.level = .cluster)) ||
    (l = .cluster && r.level = .core && r.target / 4 = target)

/-- Drop the resets in progress that it takes in, and start one that completes by `due`. -/
def State.startReset (l : ResetLevel) (target due : Nat) (s : State) : State :=
  s.onDev fun d => { d with resets := (d.resets.filter fun r => !r.within l target) ++ [⟨l, target, due⟩] }

/-- A core reset of physical core `p`: at most 2 µs (R370). -/
def State.coreReset (p cause : Nat) (s : State) : State :=
  let fl := (s.core p).flights
  let s := (((s.logReset .core (srcCore p) cause).freeDest fl).releaseSlots p fl).onCore p Core.coreReset
  s.startReset .core p (s.clock.uptime + 2000)

/-- Clear physical core `p`: its tile store and all its state. -/
def State.killCore (p : Nat) (s : State) : State :=
  let fl := (s.core p).flights
  let work := (s.core p).frameStrands.filter fun e => e.2.work
  ((s.releaseSlots p fl).clearBytes (tileKey p 0) tileBytes).onCore p fun c =>
    { c.killed with strands := work.map fun e => (e.1, e.2.afterReset), inReset := true, stopped := true }

/-- A reset of physical cluster `k`: 20 µs (R370). R20 has no kind of source unit for a cluster: the event names the compute die that holds it (log
entry 153). -/
def State.clusterReset (k cause : Nat) (s : State) : State :=
  let s := s.logReset .cluster (srcCompute (k / 2)) cause
  let s := s.each [4 * k, 4 * k + 1, 4 * k + 2, 4 * k + 3] fun s p => s.killCore p
  s.startReset .cluster k (s.clock.uptime + 20000)

/-- A reset of the compute partition: 400 µs (R370). -/
def State.partitionReset (cause : Nat) (s : State) : State :=
  let s := s.logReset .partition srcModule cause
  let s := s.each (List.range 128) fun s p => s.killCore p
  s.startReset .partition 0 (s.clock.uptime + 400000)

/-- A reset in progress covers physical core `p`. -/
def ResetRun.covers (p : Nat) (r : ResetRun) : Bool :=
  match r.level with
  | .core => r.target == p
  | .cluster => r.target == p / 4
  | .partition => true
  | .module => true

/-- End a reset in progress: its cores may work again where no other reset covers them. -/
def State.endReset (r : ResetRun) (s : State) : State :=
  let rest := s.dev.resets.erase r
  let s := s.onDev fun d => { d with resets := rest, romRestart := if r.level = .module then false else d.romRestart }
  let s := if r.level = .module && s.dev.startStep = 3 then
      (s.onDev fun d => { d with startStep := 4, stepEnds := d.stepEnds ++ [s.ms] }).onCofin fun c =>
        { c with trying := some .gen3 }
    else s
  s.each (List.range 128) fun s p =>
    if r.covers p && (s.core p).inReset && !(rest.any fun x => x.covers p) then
      s.onCore p fun c => { c with inReset := false, sunkLogged := false }
    else s

/-- The pairs of twin mode: both cores hold logical numbers and neither is retired (R363). -/
def State.twinPairs (s : State) : List Nat :=
  (List.range 64).filter fun i =>
    [2 * i, 2 * i + 1].all fun p => (s.core p).logical ≠ 0xFF && !(s.core p).retired && !s.integ.twinBarred.contains i

/-- T_N as the integrity status block reports it. -/
def State.countTwins (s : State) : State :=
  let n := s.twinPairs.length
  s.onInteg fun v => { v with twinCores := BitVec.ofNat 8 n }

/-- The physical core that core-table entry `n` names: logical core n, or twin core n (R363). -/
def State.coreFor (s : State) (twin : Bool) (n : Nat) : Nat :=
  if twin then 2 * s.twinPairs.getD n 127 else s.phys n

/-- The block that a core-table entry runs. -/
def Resident.blockOf (r : Resident) (n : Nat) : Option Nat := (r.plan.code[r.role]?).bind fun x => x.cores.getD n none

/-- The physical cores that a resident plan runs on, both of a pair: core-table entry, block, physical core. -/
def State.coresOn (s : State) (r : Resident) : List (Nat × Nat × Nat) :=
  (List.range 120).flatMap fun n =>
    match r.blockOf n with
    | none => []
    | some b =>
      let p := s.coreFor r.plan.twin n
      if r.plan.twin then [(n, b, p), (n, b, p + 1)] else [(n, b, p)]

/-- Retire physical core `p` (R16, R369): a core reset, CORE_RETIRED and DEGRADED. -/
def State.retire (p : Nat) (s : State) : State :=
  if (s.core p).retired then s
  else
    let s := (s.coreReset p causeRetire).note .coreRetired (srcCore p)
    let s := s.onCore p fun c => { c with retired := true, test := { c.test with state := .retired, forced := false } }
    (s.onDev fun d => { d with degraded := true }).countTwins

/-! ## The crash dump -/

/-- The region's hub cannot be read: its stacks are critical (R205). -/
def State.regionOpen (s : State) : Bool :=
  match s.dump.region with
  | none => false
  | some h => [3 * h, 3 * h + 1, 3 * h + 2].all fun t => !(s.stack t).stopped

/-- The cores whose tile stores a full dump holds: those with a strand not IDLE, FRAME_DONE or PLAN_DONE, the lowest 38 (R376). -/
def State.dumpTiles (s : State) : List Nat :=
  ((List.range 128).filter fun p =>
    (s.core p).strands.any fun e => e.2.st ≠ .idle && e.2.st ≠ .frameDone && e.2.st ≠ .planDone).take 38

/-- Start a dump (R375), or log DUMP_SKIPPED while one is held (R377) and, after a running one, when it completes (R380).
`back` is the state to return to. -/
def State.startDump (t : DumpTrigger) (back : DevState) (tag : Option Word) (s : State) : State :=
  if s.dump.running.isSome then s.onDump fun d => { d with skipped := true }
  else if s.dump.held.isSome then s.note .dumpSkipped srcControl
  else
    let r : DumpRec :=
      { trigger := t, seq := s.log.lastSeq, summaryOnly := !s.regionOpen, uptime := s.clock.uptime
        meridian := s.clock.meridian, state := s.dev.state, jobTag := s.jobTag
        step := match s.job.attempt with
          | some a => a.step
          | none => 0
        epoch := s.job.attempts, tiles := s.dumpTiles }
    (s.onDump fun d => { d with running := some r, back, tag }).enter .dumping

/-! ## FAULTED -/

/-- A module in FAULTED sends no seal vote (R205). -/
def State.noVote (s : State) : State := s.onSealSt fun v => { v with vote := none }

/-- The module enters FAULTED (R390): with a job bound it broadcasts PEER_LOST naming itself first (R305), and a dump
is captured (R375). -/
def State.fail (s : State) : State :=
  if s.dev.state = .ready || s.dev.state = .running || s.dev.state = .draining then
    let s := if s.job.bind.isSome then s.sendLost s.ownCoord else s
    (s.stopWork.noVote.enter .faulted).startDump .faulted .faulted none
  else if s.dev.state = .dumping && (s.dump.back = .ready || s.dump.back = .running || s.dump.back = .draining) then
    let s := if s.job.bind.isSome then s.sendLost s.ownCoord else s
    s.stopWork.noVote.onDump fun d => { d with back := .faulted, skipped := d.running.isSome }
  else s

/-! ## Hang recovery (R373) -/

/-- Steps 3 and 4: every core is killed and the partition reset. -/
def State.hangKill (s : State) : State := s.partitionReset causeHang

/-- Commands whose work uses the compute partition (R372). -/
def usesPartition (op : Nat) : Bool := op = 0x0105 || op = 0x0603 || op = 0x0604

/-- Pending commands that need the partition complete with 0x0701, those fetched and not begun among them (R373). -/
def State.endPartitionCommands (s : State) : State :=
  let s := (s.endDispatches (fun _ => true) 0x0701 0).onJob fun j =>
    { j with score := none, slots := Tab.set {} 4 {} j.slots }
  s.each [1, 6] fun s m => s.each ((s.mbox m).inFlight.filter fun f => usesPartition f.opcode.toNat) fun s f => s.complete m f.tag 0x0701

/-- Steps 1 and 2: issue stops everywhere, HANG_RECOVERY is logged, and a dump is captured; with a dump held already, the
recovery goes on to step 3 (R377). -/
def State.hangRecovery (s : State) : State :=
  if s.dump.hang then s
  else
    let s := s.onCores fun t => t.map fun e => (e.1, { e.2 with stopped := true })
    let (s, lasting) := s.logVerdict .hangRecovery srcModule 0 0
    let s := s.onDump fun d => { d with hang := true, hangLasting := lasting }
    if s.dump.running.isSome then (s.onDump fun d => { d with skipped := true })
    else if s.dump.held.isSome then (s.note .dumpSkipped srcControl).hangKill
    else s.startDump .hang s.dev.state none

/-- The module leaves a hang recovery: READY, or FAULTED when it is lasting (R369, R373). -/
def State.hangLeave (s : State) : State :=
  let lasting := s.dump.hangLasting
  let s := s.onDump fun d => { d with hang := false, hangLasting := false }
  let s := if s.dev.state = .running || s.dev.state = .draining then s.enter .ready else s
  if lasting then s.fail else s

/-- Step 5, after the partition reset: the job treats the module as lost (R373). -/
def State.hangEnd (s : State) : State :=
  let s := s.endPartitionCommands
  if s.job.bind.isSome then
    let s := match s.job.attempt with
      | some a => if a.abortFo.isSome then s else (s.knowAbort s.job.now).sendAbort a.step s.job.now
      | none => s
    let s := (s.voteIntegrity.sendLost s.ownCoord).onJob fun j => { j with hangEnd := true }
    s
  else s.hangLeave

/-! ## Power domains and module reset (R21, R370) -/

/-- Router counts survive (R264: kept since power-up); all else of the router is lost. -/
def Router.counts (r : Router) : Router :=
  { r with
    out := (r.out.map fun e =>
      (e.1, ({ txPackets := e.2.txPackets, creditStalls := e.2.creditStalls, spanIdle := e.2.spanIdle } : OutPort))).filter
        fun e => decide (e.2 ≠ {})
    copies := [], nextCopy := 0, copyWait := [], aborts := [], messages := [], slotBuf := [], transfers := [], parked := [] }

/-- Counts of a link that are kept since power-up (R226). -/
def Link.counts (l : Link) : Link :=
  { uncorrectable := l.uncorrectable, retries := l.retries, retrains := l.retrains }

/-- What a gateway port keeps: its transceiver, and its counts since power-up (R236). Its link is down until it comes up again. -/
def Gateway.counts (v : Gateway) : Gateway :=
  { state := if v.state = 2 then 1 else v.state, powerClass := v.powerClass, lowPower := v.lowPower, txBytes := v.txBytes, rxBytes := v.rxBytes
    fecUncorrected := v.fecUncorrected }

/-- Counts of a stack kept since power-up (R206). -/
def Stack.counts (t : Stack) : Stack :=
  { corrected := t.corrected, uncorrected := t.uncorrected, retrains := t.retrains, detourPeak := t.detourPeak }

/-- The control dies are in the standby domain (R21): their ladder goes on without the main domain. -/
def standbyDie (src : Nat) : Bool := src = 0x701 || src = 0x702

/-- The settings accepted while a job was bound take effect (R335). -/
def Power.applyNext (now : Nat) (p : Power) : Power :=
  match p.next with
  | none => p
  | some (cap, fb, hyst, holdUs) =>
    { p with
      capW := cap, capAt := if cap = p.capW then p.capAt else now, fallbackEn := fb, hystPct := hyst, floorHoldUs := holdUs, next := none }

def State.applyPower (s : State) : State := s.onPower (Power.applyNext s.clock.uptime)

/-- Counts of the power controller kept since power-up (R350), and its settings, those still to be applied among them (R335). -/
def Power.kept (now : Nat) (p : Power) : Power :=
  let q := p.applyNext now
  { capW := q.capW, capAt := q.capAt, fallbackEn := q.fallbackEn, hystPct := q.hystPct, floorHoldUs := q.floorHoldUs
    contourChanges := p.contourChanges, alerts := p.alerts, framesAt := p.framesAt, framesFloor := p.framesFloor
    deferred := p.deferred, causes := p.causes
    dies := (p.dies.map fun e => (e.1, if standbyDie e.1 then e.2 else { e.2 with level := .normal })).filter fun e => decide (e.2 ≠ {}) }

/-- Keep only what `f` keeps of each entry of a table. -/
def Tab.keep {α : Type} [DecidableEq α] (d : α) (f : α → α) (t : Table α) : Table α :=
  (t.map fun e => (e.1, f e.2)).filter fun e => decide (e.2 ≠ d)

/-- What the control dies keep of a core that loses its power: its number, whether it is retired, and its field-test record (R16, R379). A test
that was cut short leaves the result of the test before it. -/
def Core.powerless (c : Core) : Core :=
  let t := c.test
  { logical := c.logical, retired := c.retired
    test := { lastPass := t.lastPass, fails := t.fails, late := t.late
              state := if t.state = .running then if t.lastPass = 0 then .never else .passed else t.state } }

/-- The main domain goes off (R21): everything in it is lost. The core map and DEGRADED stay until the next start-up (R16, R370). -/
def State.mainOff (s : State) : State :=
  { s with
    dev := { s.dev with mainOn := false, resets := s.dev.resets.filter fun r => r.level = .module }
    job := {}, sealSt := {}, cores := Tab.keep {} Core.powerless s.cores, repairs := [], hubs := []
    hbmStacks := Tab.keep {} Stack.counts s.hbmStacks, mem := [], poison := [], dir := []
    links := Tab.keep {} Link.counts s.links, ports := [], router := s.router.counts
    gws := Tab.keep {} Gateway.counts s.gws, topo := {}, power := s.power.kept s.clock.uptime }

/-! ## Start-up steps (R414) -/

/-- The step in progress ends. -/
def State.endStep (s : State) : State :=
  s.onDev fun d => { d with startStep := d.startStep + 1, stepEnds := d.stepEnds ++ [s.ms] }

/-- A start-up step fails: START_STEP_FAIL, and HELD with its cause; HELD has the main domain off (R389). -/
def State.failStep (step cause : Nat) (s : State) : State :=
  let s := (s.note .startStepFail srcModule step).mainOff
  (s.onDev fun d => { d with startStep := 4, stepEnds := d.stepEnds.take 3 }).hold cause

/-- DETAIL of START_DONE: byte k − 1 the end of step k in ms, at most 255 (log entry 23). -/
def startDetail (ends : List Nat) : Nat := ((ends.take 8).zipIdx.map fun e => min 255 e.1 * 256 ^ e.2).sum

/-- Step 8 ends when survey has ended and the counter is Locked; step 9 is READY. -/
def State.tryReady (s : State) : State :=
  if s.dev.startStep = 8 && s.dev.surveyEnd.isSome && s.mer.lock = 2 && s.dev.state = .initialising &&
      !s.dev.slow then
    let s := s.endStep
    (s.note .startDone srcModule (startDetail s.dev.stepEnds)).enter .ready
  else s

/-- What a held dump keeps through a module reset: the summary, and the full dump only while its hub stays powered. -/
def Dump.kept (d : Dump) : Dump :=
  { held := match d.running with
      | some r => some { r with summaryOnly := true, partial_ := true }
      | none => d.held.map fun r => { r with summaryOnly := true } }

/-- A module reset (R370): the log, the dump summary, the energy counter, licences, power and fault settings are kept.
The control dies restart from ROM within 50 ms (R374). -/
def State.resetState (s : State) : State :=
  let base := State.reset
  { base with
    regs := { mirror := mirrorReset s.fuses }
    fuses := s.fuses, log := s.log, clock := { s.clock with meridian := 0 }
    dev := { base.dev with
      vin48 := s.dev.vin48, standbyOn := s.dev.standbyOn, state := s.dev.state, heldCause := s.dev.heldCause
      stateChanges := s.dev.stateChanges, startStep := 3, stepEnds := s.dev.stepEnds.take 2
      overvolt := s.dev.overvolt, thermalHold := s.dev.thermalHold, degraded := s.dev.degraded, romRestart := true
      resets := [⟨.module, 0, s.clock.uptime + 50000000⟩] }
    mer := { unlocks := s.mer.unlocks }
    faults := { policies := s.faults.policies }
    power := s.power.kept s.clock.uptime
    hbmStacks := Tab.keep {} Stack.counts s.hbmStacks, links := Tab.keep {} Link.counts s.links, router := s.router.counts
    gws := Tab.keep {} Gateway.counts s.gws
    integ := { s.integ with twinCores := 0, twinBarred := [], commits := [], testTurn := 0 }
    survey := { surveys := s.survey.surveys, legendsBad := s.survey.legendsBad, seq := s.survey.seq }
    dump := s.dump.kept
    sec := { licences := s.sec.licences, signed := s.sec.signed }
    mgmt := s.mgmt, free := s.free, emitted := s.emitted }

/-- Take a module reset. With a full dump held the module passes through DUMPING (R377), else it waits in HELD. -/
def State.moduleReset (cause held : Nat) (s : State) : State :=
  let s := s.logReset .module srcModule cause
  match s.dump.held with
  | some r =>
    if !r.summaryOnly && s.dev.mainOn && s.dump.running.isNone then
      let region := s.dump.region
      let mem := s.mem
      let s := s.resetState.enter .dumping
      (s.onMem fun _ => mem).onDump (fun d =>
        { d with held := some r, region, moduleHold := some (BitVec.ofNat 8 held) }) |>.onDev fun d =>
          { d with mainOn := true }
    else s.resetState.hold held
  | none => s.resetState.hold held

/-- A reset of the partition or the module requested while a dump runs waits for its end, at most 100 ms (R380). -/
def State.requestReset (l : ResetLevel) (target cause : Nat) (s : State) : State :=
  if s.dump.running.isSome && (l = .partition || l = .module) then
    s.onDump fun d => { d with pendingResets := d.pendingResets ++ [(l, target, cause)] }
  else
    match l with
    | .core => s.coreReset target cause
    | .cluster => s.clusterReset target cause
    | .partition => s.partitionReset cause
    | .module => s.moduleReset cause 5

/-- The capture of a dump ends (R375, R377, R380): DUMP_DONE, the earlier state, skipped triggers, then the next step of a hang
recovery or a waiting reset. -/
def State.endDump (partial_ : Bool) (s : State) : State :=
  match s.dump.running with
  | none => s
  | some r =>
    let tag := s.dump.tag
    let skipped := s.dump.skipped
    let waits := s.dump.pendingResets
    let s := s.onDump fun d =>
      { d with
        running := none, held := some { r with partial_, ended := s.clock.uptime }, fetched := false, tag := none, skipped := false
        pendingResets := [] }
    let s := s.note .dumpDone srcControl
    let s := s.enter s.dump.back
    let s := if skipped then s.note .dumpSkipped srcControl else s
    let s := match tag with
      | some t => s.complete 6 t 0
      | none => s
    if waits.isEmpty then if s.dump.hang then s.hangKill else s
    else s.each waits fun s w => s.requestReset w.1 w.2.1 w.2.2

/-- The hold of a dump ends: by fetch, discard or time (R377). In a module reset that passes through DUMPING, the module
enters HELD and its full dump is lost with the main domain. -/
def State.endHold (discard : Bool) (s : State) : State :=
  match s.dump.moduleHold with
  | some cause =>
    let s := s.onDump fun d =>
      { d with moduleHold := none, region := none
               held := if discard then none else d.held.map fun r => { r with summaryOnly := true } }
    s.mainOff.hold cause.toNat
  | none => if discard then s.onDump fun d => { d with held := none } else s

/-- Loss of 48 V (R432): every domain goes off and everything is lost. -/
def State.powerLost (s : State) : State :=
  { State.reset with
    regs := { mirror := mirrorReset s.fuses }
    fuses := s.fuses, free := s.free, emitted := s.emitted
    dev := { state := .off, heldCause := 0, vin48 := false, startStep := 0, stepEnds := [] } }

end Sys2Proof.Machine
end

