-- ==== Sys2Proof/Machine/Vote.lean ====
section
/-! DEFINITION. The messages of the step seal and its tree (R318, R319): the combined vote on its way to the root (R320), and a child that
is lost while it is waited for. -/
namespace Sys2Proof.Machine

/-! ## Seal messages (R318) -/

/-- CHART_EPOCH in force; 0 with no chart. -/
def State.chartEpoch (s : State) : Word :=
  match s.topo.chart with
  | some c => c.epoch
  | none => 0

def State.sealMsg (s : State) (step : Word) (epoch : Nat) : SealMsg :=
  { jobTag := s.jobTag, step, epoch := BitVec.ofNat 32 epoch, chartEpoch := s.chartEpoch }

/-- A message of the bound job, its chart and `epoch`; any other is discarded. -/
def State.ours (s : State) (m : SealMsg) (epoch : Nat) : Bool :=
  s.job.bind.isSome && m.jobTag == s.jobTag && m.chartEpoch == s.chartEpoch && m.epoch == BitVec.ofNat 32 epoch

/-- C: the hubs hold one value. -/
def State.lastEpoch (s : State) : Nat := (s.hub 0).commit

/-- This module is the seal root; a job without a gazetteer is one module (R319). -/
def State.isRoot (s : State) : Bool := s.topo.gaz.all fun g => g.parentBearing.isNone

def State.jobSize (s : State) : Nat :=
  match s.topo.gaz with
  | some g => g.jobSize
  | none => 1

/-- Send a message toward the root. -/
def State.sendUp (kind : Nat) (m : SealMsg) (s : State) : State :=
  match s.topo.gaz.bind fun g => g.parentBearing with
  | some b =>
    match s.bondedPort b, s.neighbourAt b with
    | some q, some c => s.sealTo q c kind m
    | _, _ => s
  | none => s

/-- A child of the seal tree that is not waited for: a notice names it, or its port is not bonded (R319). -/
def State.childLost (s : State) (b : Nat) : Bool :=
  (s.bondedPort b).isNone || (s.neighbourAt b).any fun c => s.topo.notices.any fun n => n.1 = c

def State.childBearings (s : State) : List Nat :=
  match s.topo.gaz with
  | some g => g.children
  | none => []

/-- The ports of the children that are waited for. -/
def State.childPorts (s : State) : List Nat := (s.childBearings.filter fun b => !s.childLost b).filterMap s.bondedPort

/-- The bearing and the hops of the buddy: the partner at the lowest network level (R299). -/
def State.buddy (s : State) : Option (Nat × Nat) := s.place.bind fun p => p.partners.head?

/-- The buddy's coordinate. -/
def State.buddyCoord (s : State) : Option (BitVec 48) :=
  match s.buddy, s.topo.gaz with
  | some (b, hops), some g => g.rings.walk b hops g.selfCoord
  | _, _ => none

/-! ## The vote (R317, R319) -/

/-- CAUSE bits of R317. -/
def causeOverflow : BitVec 16 := 1
def causeAbort : BitVec 16 := 2
def causeMissing : BitVec 16 := 4
def causeIntegrity : BitVec 16 := 8
def causePeer : BitVec 16 := 16

def causeIf (b : Bool) (c : BitVec 16) : BitVec 16 := if b then c else 0

/-- A sticky overflow flag is set on some core or hub (R182). -/
def State.overflowed (s : State) : Bool := s.cores.any (fun e => e.2.overflow) || s.hubs.any fun e => e.2.overflow

/-- The deadline of the seal window has not come (R48, R331). -/
def State.windowOpenAt (s : State) : Bool :=
  match s.job.bind, s.job.attempt.bind fun a => a.window with
  | some b, some w => decide ((s.clock.meridian : Int) < b.deadline ((w.start + w.frames : Nat) - 1 : Int))
  | _, _ => false

/-- The root decides and broadcasts (R320); a decision that it reaches at or after the window's deadline is missing to it as to every module
(R48, R53). -/
def State.reachDecision (v : VoteState) (s : State) : State :=
  let abort := v.abort || v.count ≠ s.jobSize
  let m := { s.sealMsg v.step v.epoch with
    verdict := abort, cause := v.cause, count := BitVec.ofNat 32 v.count, integ := v.integ
    granules := BitVec.ofNat 64 (min v.granules (2 ^ 64 - 1)) }
  if !s.windowOpenAt then s.sealAll kindDecision m
  else
    (s.sealAll kindDecision m).onSealSt fun w =>
      { w with decision := some (abort, v.cause), sealNs := BitVec.ofNat 32 (s.clock.meridian - v.at_) }

/-- The combined vote goes up, or is decided at the root, when every child and every unit has reported. -/
def State.tryVote (s : State) : State :=
  match s.sealSt.vote with
  | none => s
  | some v =>
    if v.sent || !v.waiting.isEmpty || v.unitsOpen then s
    else
      let s := s.onSealSt fun w => { w with vote := some { v with sent := true } }
      if s.isRoot then s.reachDecision v
      else
        s.sendUp kindVote
          { s.sealMsg v.step v.epoch with
            verdict := v.abort, cause := v.cause, count := BitVec.ofNat 32 v.count, integ := v.integ
            granules := BitVec.ofNat 64 (min v.granules (2 ^ 64 - 1)) }

/-- Where a child is lost that is waited for, the vote goes at once with ABORT and VOTE_MISSING, and BUDDY_DONE goes without that child (R319,
R323). -/
def State.dropChildren (s : State) : State :=
  let kept := fun (l : List Nat) => l.filter fun q => s.childPorts.contains q
  let s := match s.sealSt.vote with
    | some v =>
      if v.sent || kept v.waiting == v.waiting then s
      else
        let v := { v with waiting := [], abort := true, cause := v.cause ||| causeMissing }
        (s.onSealSt fun w => { w with vote := some v }).tryVote
    | none => s
  let d := s.sealSt.doneWaiting
  if kept d == d then s
  else
    let s := s.onSealSt fun v => { v with doneWaiting := kept d }
    if kept d == [] && s.sealSt.ownDone && !s.sealSt.doneSent && !s.isRoot then
      let m := { s.sealMsg s.sealSt.commitStep s.lastEpoch with count := BitVec.ofNat 32 (s.sealSt.doneCount + 1) }
      (s.onSealSt fun v => { v with doneSent := true }).sendUp kindDone m
    else s

end Sys2Proof.Machine
end

