-- ==== Sys2Proof/Machine/Faults.lean ====
section
/-! DEFINITION. What a lasting verdict does (R369): retirement, the failure and repair of an HBM channel (R202 to R204), links held DOWN
with the states of their ports (R229, R255), twin trials and FAULTED. -/
namespace Sys2Proof.Machine

/-! ## HBM channels -/

/-- The stack of a hub channel (R190). -/
def stackOf (h k : Nat) : Nat := 3 * h + k / 31

/-- DETAIL of an HBM event: [15:0] the hub channel, [47:16] the row (log entry 23). -/
def hbmDetail (k row : Nat) : Nat := k + row * 2 ^ 16

/-- The stack has a repair running or waiting. -/
def Hub.repairs (v : Hub) (stackPart : Nat) : Bool :=
  (v.repair.any fun r => r.chan / 31 = stackPart) || (v.repairQueue.any fun r => r.chan / 31 = stackPart)

/-- The channel has failed already. -/
def Hub.failedAlready (v : Hub) (k : Nat) : Bool :=
  (v.repair.any fun r => r.chan = k) || (v.repairQueue.any fun r => r.chan = k)

/-- Begin the copy of a failed channel to the spare (R202). -/
def State.startRepair (h : Nat) (r : Repair) (s : State) : State :=
  (s.onHub h fun v => { v with repair := some { r with started := s.clock.uptime } }).note .hbmRepairStart (srcStack (stackOf h r.chan)) (hbmDetail r.chan 0) r.chan

/-- A hub with no repair running starts the one that has waited longest (R213). -/
def State.nextRepair (h : Nat) (s : State) : State :=
  match (s.hub h).repair, (s.hub h).repairQueue with
  | none, q :: rest => (s.onHub h fun v => { v with repairQueue := rest }).startRepair h q
  | _, _ => s

/-- Stop all access to a stack; a repair copy on it does not resume, and the hub goes on with a repair of another stack (R205, R213). -/
def State.stopStack (t : Nat) (s : State) : State :=
  ((s.onStack t fun v => { v with stopped := true }).onHub (hubOfStack t) fun v =>
    { v with
      repair := v.repair.filter fun r => r.chan / 31 ≠ t % 3
      repairQueue := v.repairQueue.filter fun r => r.chan / 31 ≠ t % 3 }).nextRepair (hubOfStack t)

/-- The data of hub channel `k` are unreadable (R201, R203): a repair of it that waits copies nothing. -/
def Hub.blinded (k : Nat) (v : Hub) : Hub :=
  { v with
    blind := if v.blind.any fun e => e.1 = k then v.blind else (k, []) :: v.blind
    repairQueue := v.repairQueue.map fun r => if r.chan = k then { r with blind := true } else r }

/-- Hub channel `k` of hub `h` is failed (R202): its repair starts or waits (R213); with the stack's spare used, HBM_NO_SPARE and the
module faults as at the critical step (R204). -/
def State.failChannel (h k : Nat) (blind : Bool) (s : State) : State :=
  let t := stackOf h k
  let known := (s.hub h).failedAlready k
  let s := if blind && !((s.hub h).repair.any fun r => r.chan = k) then s.onHub h (Hub.blinded k) else s
  if known then s
  else if (s.stack t).spareUsed || (s.stack t).spareBad || (s.hub h).repairs (k / 31) then
    ((s.note .hbmNoSpare (srcStack t) (hbmDetail k 0) k).stopStack t).fail
  else (s.onHub h fun v => { v with repairQueue := v.repairQueue ++ [{ chan := k, blind }] }).nextRepair h

/-! ## Ports and links -/

/-- The port of a link that has it in its bonded set. -/
def State.portOfBonded (s : State) (n : Nat) : Option Nat :=
  (List.range 12).find? fun q => (s.port q).state.bonded && (s.port q).bonded.getLsbD n

/-- Links in a port's configured set, as the licence leaves them. -/
def Port.linkCount (p : Port) : Nat := ((List.range 24).filter fun n => p.links.getLsbD n).length

/-- A bonded port went DOWN: with a job bound, PEER_LOST names the neighbour on it (R255). -/
def State.portLost (q n : Nat) (s : State) : State :=
  match s.job.bind, s.neighbourAt (s.port q).bearing.toNat with
  | some _, some c => ((s.note .peerLost (srcLink n)).sendLost c).holdLost c s.job.now
  | _, _ => s

/-- The state of port `q` after its bonded link `n` failed, narrowed, or came back as wide as it was or wider (R229); packets staged at a port that
goes DOWN take another way (R254). -/
def State.portChanged (q n : Nat) (failed narrowed : Bool) (s : State) : State :=
  let p := s.port q
  let bonded := if failed then p.bonded &&& ~~~(BitVec.ofNat 24 (2 ^ n)) else p.bonded
  let live := (List.range 24).filter fun i => bonded.getLsbD i
  let units := (live.map fun i => (s.link i).units).sum
  if live.isEmpty || units < max 1 p.minUnits then
    let s := s.onPort q fun v => { v with state := .down, bonded := 0 }
    (((s.note .portDown srcModule q).unbond q).portLost q n).dropChildren
  else if units = 2 * p.linkCount then s.onPort q fun v => { v with state := .full, bonded }
  else
    let s := s.onPort q fun v => { v with state := .narrow, bonded }
    if failed || narrowed then s.note .portNarrow srcModule q else s

/-- The port of link `n`, if the link is bonded, follows its change. -/
def State.linkChanged (n : Nat) (failed narrowed : Bool) (s : State) : State :=
  match s.portOfBonded n with
  | some q => s.portChanged q n failed narrowed
  | none => s

/-- The packets of which a link going DOWN has sent nothing stand at the head of its port's packets again, older than those; without a bonded port
they take another way at once (R225, R265). Its other groups are discarded. -/
def State.recall (n : Nat) (s : State) : State :=
  let back := (s.link n).unsentPackets
  let s := s.onLink n Link.emptied
  match s.portOfBonded n with
  | some q =>
    let b := (s.port q).bearing.toNat
    s.onOut q fun o =>
      { o with staged := back.map (fun e => { packet := e.1, entering := entersRing e.2 b, adaptive := false, from_ := e.2, counted := true }) ++ o.staged }
  | none => s.each back fun s e => s.forward { packet := e.1, entering := true, adaptive := false, from_ := e.2, counted := true }

/-- A link carries nothing any more: its legend is the far module's no longer, and its last offset steers nothing (R31). -/
def State.emptyLink (n : Nat) (st : LinkState) (s : State) : State :=
  ((s.onLink n fun l => { l with state := st, legend := none, verified := none, legendSent := [], partial_ := [] }).onMer fun m =>
    { m with offsets := Tab.set none n none m.offsets }).recall n

/-- Put a link DOWN; its held groups are discarded, and the packets still queued for it take another way (R225). -/
def State.dropLink (n : Nat) (s : State) : State := (s.emptyLink n .down).linkChanged n true true

/-! ## Survey starts (R289) -/

/-- Survey starts, with the sheet and the port map in force. Bearings start from the port map. -/
def State.startSurvey (s : State) : State :=
  let w := s.survey.sheet
  let s := s.onSurvey fun v =>
    { v with
      state := 1, began := s.clock.uptime, lastChange := s.clock.uptime, round := 0, surveys := satInc v.surveys
      coord := if w.flags.getLsbD 0 then some w.selfCoord else none
      derived := false, reoriented := false, mismatchLogged := [] }
  s.each (List.range 12) fun s q =>
    if (s.port q).state = .unconfigured then s else s.onPort q fun p => { p with bearing := p.cfgBearing }

/-- A link's change after survey has settled starts a survey of the module, when no job is bound (R289). Links held down as lasting stay so
(R369). -/
def State.linkNews (s : State) : State :=
  if s.survey.state ≠ 0 && s.survey.state ≠ 1 && s.job.bind.isNone then s.startSurvey else s

/-- Hold a link DOWN until PORT_CONFIG or SURVEY (R369). -/
def State.holdLink (n : Nat) (s : State) : State :=
  ((s.dropLink n |>.onLink n fun l => { l with lastingDown := true }).onDev fun d => { d with degraded := true }).linkNews

/-! ## Lasting actions -/

/-- Source kinds of R20. -/
def isCoreSrc (src : Nat) : Bool := src / 256 == 2
def isHubSrc (src : Nat) : Bool := src / 256 == 3
def isStackSrc (src : Nat) : Bool := src / 256 == 4

/-- Both cores of a pair are field-tested at once (R369). -/
def State.twinTrial (p : Nat) (s : State) : State :=
  s.each [p, p + 1] fun s c => s.onCore c fun v => { v with test := { v.test with forced := true, trial := true } }

/-- The action of a lasting verdict (R369); `sub` is the hub channel of an HBM code and the arrival link of PAYLOAD_CRC. -/
def State.lastingAction (e : Event) (src sub : Nat) (s : State) : State :=
  match e with
  | .arrayCheck | .arrayParity | .icacheParity | .macroOpFault | .tokenOverflow | .tokenImbalance | .fieldTestFail =>
    s.retire (src - srcCore 0)
  | .pathParity => if isCoreSrc src then s.retire (src - srcCore 0) else if isHubSrc src then s.fail else s
  | .twinMismatch => s.twinTrial (src - srcCore 0)
  | .hbmCorrected | .hbmUncorrectable => s.failChannel (hubOfStack (src - srcStack 0)) sub false
  | .hubcCorrected | .hubcUncorrectable | .updateMismatch => s.fail
  | .reduceMismatch | .msgTableFull | .headerCrc =>
    if srcCompute 0 ≤ src && src < srcCompute 16 then
      s.each (List.range 8) fun s i => s.retire (8 * (src - srcCompute 0) + i)
    else s
  | .linkRetryExhausted | .laneBer | .linkRetrain => s.holdLink (src - srcLink 0)
  | .payloadCrc => s.holdLink sub
  | _ => s

/-- Log and count an event, and take its lasting action (R367, R369). -/
def State.fault (e : Event) (src : Nat) (detail : Nat := 0) (sub : Nat := 0) (s : State) : State :=
  let (s, lasting) := s.logVerdict e src detail sub
  if lasting then s.lastingAction e src sub else s

/-! ## ECC (R196, R197) -/

/-- ECC corrected a block on a hub channel. -/
def State.hbmCorrected (h k row : Nat) (s : State) : State :=
  (s.onStack (stackOf h k) fun t => { t with corrected := satInc t.corrected }).fault .hbmCorrected
    (srcStack (stackOf h k)) (hbmDetail k row) k

/-- ECC could not correct a block on a hub channel: it is poisoned. -/
def State.hbmUncorrectable (h k row block : Nat) (s : State) : State :=
  ((s.poisonBlock (hbmKey h k row 0 / 64 + block)).onStack (stackOf h k) fun t =>
    { t with uncorrected := satInc t.uncorrected }).fault .hbmUncorrectable (srcStack (stackOf h k)) (hbmDetail k row) k

/-- The memory that a block number lies in (the regions of `Memory.lean`): HBM, a hub cache, a hub's turn buffer, or the entry of a detour
queue that holds the data. -/
inductive BlockPlace where
  | hbm (h k row block : Nat)
  | hubc (h offset : Nat)
  | turn (h offset : Nat)
  | detour (h : Nat) (entry : Option (Detour × Nat))
  | other
  deriving DecidableEq, Repr

/-- The entry of a detour queue at byte `o` of its write data, and the address that the byte is for. -/
def detourAt : List Detour → Nat → Option (Detour × Nat)
  | [], _ => none
  | d :: t, o => if o < d.data.length then some (d, d.addr + o) else detourAt t (o - d.data.length)

def State.blockPlace (s : State) (b : Nat) : BlockPlace :=
  let k := s.physKey (64 * b)
  if k < hbmEnd then
    let (h, c, i) := hbmParts k
    .hbm h c (i / 64) (i % 64)
  else if hubcKey 0 0 ≤ k && k < hubcKey 8 0 then .hubc ((k - hubcKey 0 0) / 2 ^ 25) ((k - hubcKey 0 0) % 2 ^ 25)
  else if turnKey 0 0 ≤ k && k < turnKey 8 0 then .turn ((k - turnKey 0 0) / 2 ^ 23) ((k - turnKey 0 0) % 2 ^ 23)
  else if detourKey 0 0 ≤ k && k < detourKey 8 0 then
    let h := (k - detourKey 0 0) / 2 ^ 22
    .detour h (detourAt (s.hub h).detour ((k - detourKey 0 0) % 2 ^ 22))
  else .other

/-- A block that a command reads was corrected (R196). A block of the turn buffer is named by its hub and offset, one of a detour queue by the
channel and row that its data are for (log entry 123). -/
def State.eccCorrected (b : Nat) (s : State) : State :=
  match s.blockPlace b with
  | .hbm h k row _ => s.hbmCorrected h k row
  | .hubc h o => s.fault .hubcCorrected (srcHub h) o
  | .turn h o => s.fault .hubcCorrected (srcHub h) o
  | .detour h (some d) => s.hbmCorrected h d.1.chan (d.2 / 4096 % 524288)
  | .detour _ none => s
  | .other => s

/-- A block that a command reads could not be corrected (R197): it is poisoned and logged. -/
def State.eccUncorrectable (b : Nat) (s : State) : State :=
  match s.blockPlace b with
  | .hbm h k row i => s.hbmUncorrectable h k row i
  | .hubc h o => (s.poisonBlock b).fault .hubcUncorrectable (srcHub h) o
  | .turn h o => s.fault .hubcUncorrectable (srcHub h) o
  | .detour h (some d) => s.hbmUncorrectable h d.1.chan (d.2 / 4096 % 524288) (d.2 / 64 % 64)
  | .detour _ none => s
  | .other => s

/-! ## Requests to HBM (R200, R202, R205) -/

/-- Every stack serves requests, no channel retrains and none is copied. -/
def State.hbmCalm (s : State) : Bool :=
  (s.hubs.all fun e => e.2.retraining.isNone && e.2.repair.isNone) && s.hbmStacks.all fun e => !e.2.stopped

/-- A run of keys lies on a stack that serves no request (R205). -/
def State.unserved (s : State) (keys : List (Nat × Nat)) : Bool :=
  !s.hbmCalm && keys.any fun k =>
    let p := s.physKey k.1
    decide (p < hbmEnd) && (s.stack (stackOf (hbmParts p).1 (hbmParts p).2.1)).stopped

/-- Requests for some runs of keys reach their hubs: those for a channel that takes none wait in the detour queue (R200). -/
def State.askReads (keys : List (Nat × Nat)) (s : State) : State :=
  if s.hbmCalm then s
  else
    s.each keys fun s k =>
      let p := s.physKey k.1
      if p < hbmEnd then s.detourRequest p [] false else s

/-- Hubs whose detour queue took or turned away a request between two states. -/
def detoured (s t : State) : List Nat :=
  (List.range 8).filter fun h => decide ((s.hub h).detour.length + (s.hub h).turnedAway < (t.hub h).detour.length + (t.hub h).turnedAway)

/-- Once hub `h`'s detour queue is empty, the macro-ops whose requests waited in it go on (R200). -/
def State.leaveDetour (h : Nat) (s : State) : State :=
  if (s.hub h).detour.isEmpty then
    s.onCores fun t => t.map fun e =>
      (e.1, { e.2 with flights := e.2.flights.map fun f => { f with detour := f.detour.filter fun x => x ≠ h } })
  else s

/-- Writes to a row that a copy has passed leave the detour queues (R202). -/
def State.passCopied (hubs : List Nat) (s : State) : State :=
  s.each hubs fun s h => (s.onHub h fun v => { v with detour := s.queuedAt h }).leaveDetour h

/-- A read of some keys whose channel retrains waits in the detour queues of their hubs, as `park` says; else it is served now (R200). -/
def State.readOrPark (keys : List (Nat × Nat)) (park : List Nat → Parked) (serve : State → State) (s : State) : State :=
  let t := s.askReads keys
  let hubs := detoured s t
  if hubs.isEmpty then serve t else t.onRouter fun r => { r with parked := r.parked ++ [park hubs] }

end Sys2Proof.Machine
end

