-- ==== Sys2Proof/Machine/Crypto.lean ====
section
/-! DEFINITION. ECDSA on P-256 (FIPS 186-4), as boot ROM and the security engine verify firmware, licences and
legends (R284, R416, R423). Keys and signatures are little-endian integers (R11, R284). -/
namespace Sys2Proof.Machine

/-- The field prime of P-256. -/
def p256Prime : Nat :=
  0xffffffff00000001000000000000000000000000ffffffffffffffffffffffff

/-- The order of the base point. -/
def p256Order : Nat :=
  0xffffffff00000000ffffffffffffffffbce6faada7179e84f3b9cac2fc632551

/-- The coefficient b of y² = x³ − 3x + b. -/
def p256B : Nat :=
  0x5ac635d8aa3a93e7b3ebbd55769886bc651d06b0cc53b0f63bce3c3e27d2604b

/-- The base point. -/
def p256Base : Nat × Nat :=
  (0x6b17d1f2e12c4247f8bce6e563a440f277037d812deb33a0f4a13945d898c296,
   0x4fe342e2fe1a7f9b8ee7eb4a7c0f9e162bce33576b315ececbb6406837bf51f5)

/-- `b ^ e` modulo `m` by squaring; `bits` is the number of bits of `e` to use. -/
def powMod (m b : Nat) : Nat → Nat → Nat → Nat
  | 0, _, acc => acc
  | bits + 1, e, acc =>
    let acc := acc * acc % m
    powMod m b bits e (if natBit e bits then acc * b % m else acc)

/-- The inverse of `a` modulo the prime `m` (Fermat). -/
def invMod (m a : Nat) : Nat :=
  powMod m (a % m) 256 (m - 2) 1

/-- A point in Jacobian coordinates; z = 0 is the point at infinity. -/
structure Jacobian where
  x : Nat
  y : Nat
  z : Nat
  deriving DecidableEq, Repr

/-- Subtraction modulo the field prime. -/
def fsub (a b : Nat) : Nat :=
  (a + p256Prime - b % p256Prime) % p256Prime

/-- Multiplication modulo the field prime. -/
def fmul (a b : Nat) : Nat :=
  a * b % p256Prime

/-- The double of a point. -/
def Jacobian.double (p : Jacobian) : Jacobian :=
  if p.z = 0 then p
  else
    let yy := fmul p.y p.y
    let s := fmul 4 (fmul p.x yy)
    let zz := fmul p.z p.z
    let m := fmul 3 (fmul (fsub p.x zz) ((p.x + zz) % p256Prime))
    let x := fsub (fmul m m) (2 * s)
    let y := fsub (fmul m (fsub s x)) (fmul 8 (fmul yy yy))
    ⟨x, y, fmul 2 (fmul p.y p.z)⟩

/-- The sum of two points. -/
def Jacobian.add (p q : Jacobian) : Jacobian :=
  if p.z = 0 then q
  else if q.z = 0 then p
  else
    let z1 := fmul p.z p.z
    let z2 := fmul q.z q.z
    let u1 := fmul p.x z2
    let u2 := fmul q.x z1
    let s1 := fmul p.y (fmul z2 q.z)
    let s2 := fmul q.y (fmul z1 p.z)
    if u1 = u2 then
      if s1 = s2 then p.double else ⟨1, 1, 0⟩
    else
      let h := fsub u2 u1
      let r := fsub s2 s1
      let hh := fmul h h
      let hhh := fmul h hh
      let v := fmul u1 hh
      let x := fsub (fmul r r) (hhh + 2 * v)
      ⟨x, fsub (fmul r (fsub v x)) (fmul s1 hhh), fmul h (fmul p.z q.z)⟩

/-- `k` times a point, from bit `bits − 1` down. -/
def Jacobian.mul (p : Jacobian) : Nat → Nat → Jacobian → Jacobian
  | 0, _, acc => acc
  | bits + 1, k, acc =>
    let acc := acc.double
    Jacobian.mul p bits k (if natBit k bits then acc.add p else acc)

/-- The point lies on the curve. -/
def p256OnCurve (q : Nat × Nat) : Bool :=
  q.1 < p256Prime && q.2 < p256Prime &&
    fmul q.2 q.2 == fsub (fmul q.1 (fmul q.1 q.1) + p256B) (3 * q.1)

/-- ECDSA P-256 verification of signature (r, s) over the digest, with the public key. -/
def ecdsaVerify (key : Nat × Nat) (digest : Bytes) (r s : Nat) : Bool :=
  if r = 0 || s = 0 || p256Order ≤ r || p256Order ≤ s || !p256OnCurve key then false
  else
    let e := beNat digest
    let w := invMod p256Order s
    let u1 := e * w % p256Order
    let u2 := r * w % p256Order
    let g : Jacobian := ⟨p256Base.1, p256Base.2, 1⟩
    let q : Jacobian := ⟨key.1, key.2, 1⟩
    let p := (g.mul 256 u1 ⟨1, 1, 0⟩).add (q.mul 256 u2 ⟨1, 1, 0⟩)
    if p.z = 0 then false
    else
      let zi := invMod p256Prime p.z
      fmul p.x (fmul zi zi) % p256Order == r

/-- Verification of a record whose signature field holds r then s at `off`, each 32 bytes (R284, R416, R423). -/
def verifyRecord (key : Nat × Nat) (record : Bytes) (signedLen off : Nat) : Bool :=
  ecdsaVerify key (sha256 (slice record 0 signedLen)) (field record off 32) (field record (off + 32) 32)

end Sys2Proof.Machine
end

