-- ==== Sys2Proof/Machine/Security.lean ====
section
/-! DEFINITION. Mailbox 4 (R407): licences (R423, R424), the identity chain (R421), attestation (R422) and the cartouche
(R425 to R428). -/
namespace Sys2Proof.Machine

/-! ## Licences -/

/-- LICENCE_DIGEST (R422). -/
def State.licenceDigest (s : State) : Bytes :=
  let all := [1, 2, 3, 4].flatMap fun k => Tab.get [] k s.sec.licences
  if all.isEmpty then List.replicate 32 0 else sha256 all

/-- The first check a licence fails, 1 to 5; 0 when it passes all (R423). -/
def State.licenceCheck (s : State) (data : Bytes) : Nat :=
  if data.length < 192 then 1
  else if field data 0 4 ≠ 0x434C5154 || field data 4 1 ≠ 1 then 2
  else if field data 5 1 = 0 || 4 < field data 5 1 then 3
  else if field data 12 32 ≠ s.fuses.identityFp.toNat then 4
  else if !verifyRecord s.fuses.licenceKey data 128 128 then 5
  else 0

/-- Link `n` starts training now, and its far module is unknown until a legend comes (R222). -/
def State.trainLink (n : Nat) (s : State) : State :=
  s.onLink n fun l =>
    { l with
      state := .training, inService := false, farLanes := none, triedAt := s.clock.uptime
      legend := none, verified := none, legendSent := [], partial_ := [] }

/-- Fabric Full takes effect at once: links 16 to 23 train (R237, R424). -/
def State.enableLinks (s : State) : State :=
  if s.dev.mainOn && decide (7 ≤ s.dev.startStep) then
    s.each (List.range 8) fun s i => if (s.link (16 + i)).state = .disabled then s.trainLink (16 + i) else s
  else s

/-- LICENCE_INSTALL's work. -/
def State.installLicence (data : Bytes) (c : Cmd) (s : State) : State :=
  let bad := s.licenceCheck data
  if bad ≠ 0 then (s.note .licenceRefused srcControl bad).finish 4 c 0x0505 bad
  else
    let kind := field data 5 1
    if s.licensed kind then s.finish 4 c 0
    else
      let s := (s.onSec fun v => { v with licences := Tab.set [] kind (data.take 192) v.licences }).note .licenceInstalled
        srcControl kind
      (if kind = 1 then s.enableLinks else s).finish 4 c 0

def licenceInstall (c : Cmd) (data : Bytes) (s : State) : State :=
  s.command 4 0x0401 c true (State.installLicence data c)

/-- LICENCE_INSTALL (R423, R424). -/
def execLicenceInstall (c : Cmd) (data : Bytes) (s : State) : Out := commit s (licenceInstall c data s)

/-- The installed records in increasing KIND order. -/
def State.licenceRecords (s : State) : Bytes := [1, 2, 3, 4].flatMap fun k => Tab.get [] k s.sec.licences

def licenceList (c : Cmd) (s : State) : State :=
  s.command 4 0x0402 c false fun s => s.finishWith 4 c s.licenceRecords

/-- LICENCE_LIST (R407). -/
def execLicenceList (c : Cmd) (s : State) : Out := commit s (licenceList c s)

/-! ## Identity and attestation -/

/-- The chain as IDENTITY_CERT writes it: device, Icnex device CA, Icnex root (R421). -/
def certificateChain : Bytes :=
  leBytes 4 3 ++ [0, 1, 2].flatMap fun i => leBytes 4 (Config.certificate i).length ++ Config.certificate i

def identityCert (c : Cmd) (s : State) : State :=
  s.command 4 0x0403 c false fun s => s.finishWith 4 c certificateChain

/-- IDENTITY_CERT (R421). -/
def execIdentityCert (c : Cmd) (s : State) : Out := commit s (identityCert c s)

/-- The signature over a record, and one more signature made. -/
def State.sign (record : Bytes) (s : State) : Bytes × State :=
  (leBytes 64 (Config.signature s.sec.signed record).toNat, s.onSec fun v => { v with signed := v.signed + 1 })

/-- The signed part of the attestation record. -/
def State.attestation (s : State) (nonce : Bytes) : Bytes :=
  let (id, sha) := match s.dev.config with
    | some r => (r.configId.toNat, sha256 r.bytes)
    | none => (0, List.replicate 32 0)
  layout 192
    [fld 0 4 0x54544154, (4, slice nonce 0 32), fld 36 32 s.fuses.identityFp.toNat, (68, s.fwMeas),
     fld 100 4 s.fuses.romVersion.toNat, fld 104 4 s.dev.fw.svn.toNat, fld 108 4 id, (112, sha), (144, s.licenceDigest),
     fld 176 1 s.licences, fld 177 1 s.dev.fw.numrev.toNat, fld 178 1 s.dev.state.code, fld 180 8 s.clock.uptime]

/-- ATTEST's work. -/
def State.attested (nonce : Bytes) (c : Cmd) (s : State) : State :=
  let record := s.attestation nonce
  let (sig, s) := s.sign record
  s.finishWith 4 c (record ++ sig)

def attest (c : Cmd) (nonce : Bytes) (s : State) : State :=
  s.command 4 0x0404 c false (State.attested nonce c)

/-- ATTEST (R422). -/
def execAttest (c : Cmd) (nonce : Bytes) (s : State) : Out := commit s (attest c nonce s)

/-! ## The cartouche -/

/-- One level of the tree of R426: an odd node is promoted unchanged. -/
def merkleLevel : List Bytes → List Bytes
  | a :: b :: t => sha256 (a ++ b) :: merkleLevel t
  | l => l

/-- Fold levels until one node is left. -/
def merkleFold : Nat → List Bytes → List Bytes
  | 0, l => l
  | n + 1, l => if l.length ≤ 1 then l else merkleFold n (merkleLevel l)

/-- The root of leaves (R426). The manual gives none for no leaves: a free value (log entry 11). -/
def merkleRoot (l : List Bytes) : Bytes :=
  match merkleFold l.length l with
  | d :: _ => d
  | [] => (List.range 32).map Config.freeByte

/-- Versioned tensors in increasing identifier. -/
def State.versioned (s : State) : List Tensor :=
  (s.job.tensors.filter fun t => t.versioned).mergeSort fun a b => decide (a.id ≤ b.id)

/-- The digest of a granule: the stored one, or the SHA-256 of its current bytes while no commit has flipped it (R425). -/
def State.granuleDigest (s : State) (prev : Bool) (dk : Nat) : Bytes :=
  let stored := Tab.get [] dk (if prev then s.sec.prevDigests else s.sec.digests)
  if stored.isEmpty then sha256 (s.bytesAt (s.currentKey dk) 4096) else stored

/-- The directory keys of a local shard slot's slices, by tensor, variant copy, then granule (R426). -/
def State.shardGranules (s : State) (slot : Nat) : List Nat :=
  s.versioned.flatMap fun t =>
    (List.range t.nslots).flatMap fun v => (List.range t.granules).map fun g => dirKey t.id slot v 0 g

/-- The shard root of a local shard slot. -/
def State.shardRoot (s : State) (prev : Bool) (slot : Nat) : Bytes :=
  merkleRoot ((s.shardGranules slot).map (s.granuleDigest prev))

/-- Place of the module for the cartouche: v0, member, stage. -/
def State.placeOrZero (s : State) : ChartPlace :=
  s.place.getD { member := 0, stage := 0, v0 := 0, partners := [] }

/-- The part of the cartouche before its signature (R427). -/
def State.cartouche (s : State) (k : Commit) (prev : Bool) (manifest : Bytes) : Bytes :=
  let place := s.placeOrZero
  let (vLog, spm, epoch, group, stages) := match s.topo.chart with
    | some c => (c.vLog2, c.spmLog2, c.epoch.toNat, c.group, c.stages)
    | none => (0, 0, 0, 1, 1)
  let roots := (List.range (2 ^ spm)).map (s.shardRoot prev)
  layout 256
    [fld 0 4 0x54435154, fld 4 1 1, fld 5 1 k.profile, fld 6 1 s.dev.fw.numrev.toNat, fld 7 1 3, fld 8 4 k.step.toNat,
     fld 12 4 k.epoch, fld 16 2 s.jobTag.toNat, fld 18 1 vLog, fld 19 1 spm, fld 20 4 epoch, fld 24 8 k.seed.toNat,
     fld 32 4 place.v0, fld 36 4 (2 ^ spm), fld 40 1 place.member, fld 41 1 place.stage, fld 42 1 group,
     fld 43 1 (stages - 1), (44, sha256 (k.programs.flatMap id)), (76, slice manifest 0 32), (108, s.fwMeas),
     (140, s.licenceDigest), fld 172 1 s.licences, fld 176 32 s.fuses.identityFp.toNat, (208, merkleRoot roots)] ++
    roots.flatMap id

/-- Write the cartouche of a commit and complete its command. -/
def State.giveCartouche (c : Cmd) (k : Commit) (prev : Bool) (manifest : Bytes) (s : State) : State :=
  let record := s.cartouche k prev manifest
  let (sig, s) := s.sign record
  s.finishWith 4 c (record ++ sig)

/-- The last two commits that were no skip, newest first. -/
def Seal.lastCommits (v : Seal) : List Commit := (v.commits.filter fun k => !k.skipped).take 2

/-- Every hub holds RELEASE of the last commit. -/
def State.released (s : State) : Bool :=
  (List.range 8).all fun h => (s.hub h).released == (s.hub h).commit

/-- The binding keeps digests; with no binding, the licence is installed (R424, R407). -/
def State.cartoucheAllowed (s : State) : Bool :=
  if s.job.bind.isSome then s.cartoucheBound else s.licensed 4

/-- Which set holds the digests of the commit before the last: the previous one (true) once the last is confirmed, else still the current
one; none after the last was confirmed and rolled back (R428). -/
def Seal.earlierSet (v : Seal) : Option Bool :=
  v.lastCommits.head?.bind fun last =>
    if v.confirmed = some last.epoch then some true
    else if v.confirming.any fun e => !e.2.skipped && e.2.epoch = last.epoch then some false
    else none

/-- CARTOUCHE_FETCH's work. -/
def State.fetchCartouche (step : Word) (manifest : Bytes) (c : Cmd) (s : State) : State :=
  if !s.cartoucheAllowed then s.finish 4 c 0x0503
  else
    match s.sealSt.lastCommits.zipIdx.find? fun e => e.1.step = step with
    | none => s.finish 4 c 0x0212
    | some (k, i) =>
      if k.level ≠ 3 then s.finish 4 c 0x0201
      else if i = 0 && !s.released then
        s.onSec fun v => { v with waiting := v.waiting ++ [⟨c, step, manifest⟩] }
      else if i = 0 then s.giveCartouche c k false manifest
      else
        match s.sealSt.earlierSet with
        | some prev => s.giveCartouche c k prev manifest
        | none => s.finish 4 c 0x0212

def cartoucheFetch (c : Cmd) (step : Word) (manifest : Bytes) (s : State) : State :=
  s.command 4 0x0405 c false (State.fetchCartouche step manifest c)

/-- CARTOUCHE_FETCH (R427, R428). -/
def execCartoucheFetch (c : Cmd) (step : Word) (manifest : Bytes) (s : State) : Out :=
  commit s (cartoucheFetch c step manifest s)

/-- Fetches that waited complete at RELEASE of their commit (R428); one whose step is gone completes with 0x0212. -/
def State.releaseWaiting (s : State) : State :=
  let waiting := s.sec.waiting
  (s.onSec fun v => { v with waiting := [] }).each waiting fun s w => s.fetchCartouche w.step w.manifest w.cmd

end Sys2Proof.Machine
end

