-- ==== Sys2Proof/Machine/Survey.lean ====
section
/-! DEFINITION. The port map (R227, R228, R230), the wiring sheet (R287, R288), legends (R284 to R286) and survey (R289 to R294). -/
namespace Sys2Proof.Machine

/-! ## Port map -/

/-- One entry of a port map; none where the port is unused. -/
structure PortEntry where
  links : List Nat
  bearing : Nat
  minUnits : Nat
  deriving DecidableEq, Repr

/-- Entry `q` of a custom map: its link mask, bearing byte and MIN_UNITS. -/
def mapEntry (data : Bytes) (q : Nat) : Nat × Nat × Nat :=
  let o := 16 + 16 * q
  (field data o 3, field data (o + 4) 1, field data (o + 5) 1)

def linksOf (mask : Nat) : List Nat := (List.range 24).filter fun n => natBit mask n

/-- The links of port `q` in a standard profile (R230). -/
def profileLinks (profile q : Nat) : List Nat :=
  if profile = 1 then (if q < 6 then [2 * q, 2 * q + 1, 2 * q + 12, 2 * q + 13] else [])
  else if profile = 2 then
    (if q = 0 then [0, 1, 4, 5, 8, 9, 12, 13] else if q = 1 then [2, 3, 6, 7, 10, 11, 14, 15]
     else if q < 6 then [2 * q + 12, 2 * q + 13] else [])
  else [2 * q, 2 * q + 1]

/-- The twelve ports a map configures (R227, R230). -/
def portEntries (data : Bytes) : List (Option PortEntry) :=
  let profile := field data 0 1
  (List.range 12).map fun q =>
    if profile = 0 then
      let (mask, b, m) := mapEntry data q
      if b = 0xFF then none else some ⟨linksOf mask, b, m⟩
    else
      match profileLinks profile q with
      | [] => none
      | ls => some ⟨ls, q, 0⟩

/-- No number stands twice in a list. -/
def distinct (l : List Nat) : Bool := l.eraseDups.length == l.length

/-- The map is refused with 0x0112 (R228). -/
def badPortMap (data : Bytes) : Bool :=
  let profile := field data 0 1
  if 3 < profile then true
  else if profile ≠ 0 then false
  else
    let used := (portEntries data).filterMap id
    ((List.range 12).any fun q =>
      let (mask, b, _) := mapEntry data q
      (12 ≤ b && b ≠ 0xFF) || (b = 0xFF && mask ≠ 0)) ||
    used.any (fun e => e.links.isEmpty || decide (8 < e.links.length) || decide (2 * e.links.length < e.minUnits)) ||
    !distinct (used.flatMap fun e => e.links) || !distinct (used.map fun e => e.bearing)

/-! ## Wiring sheet -/

/-- Parse the 1,216 bytes of a sheet (R287). -/
def parseSheet (data : Bytes) : WiringSheet :=
  { id := BitVec.ofNat 32 (field data 0 4), flags := BitVec.ofNat 8 (field data 4 1), ringM1 := BitVec.ofNat 48 (field data 6 6)
    line := BitVec.ofNat 8 (field data 12 1), selfCoord := BitVec.ofNat 48 (field data 14 6)
    selfFp := BitVec.ofNat 256 (field data 20 32)
    links := (List.range 24).map fun n =>
      let o := 64 + 48 * n
      { farLink := field data o 1, farPort := field data (o + 1) 1, farCoord := BitVec.ofNat 48 (field data (o + 2) 6)
        checks := BitVec.ofNat 8 (field data (o + 8) 1), farFp := BitVec.ofNat 256 (field data (o + 16) 32) } }

/-- A coordinate lies on rings. -/
def inRings (m1 c : BitVec 48) : Bool := allAxes.all fun a => decide (coordAt c a ≤ coordAt m1 a)

/-- The sheet is refused with 0x0115 (R288). -/
def State.badSheet (s : State) (w : WiringSheet) : Bool :=
  w.id = 0 || (w.selfFp ≠ 0 && w.selfFp ≠ s.fuses.identityFp) ||
    (w.flags.getLsbD 0 && !inRings w.ringM1 w.selfCoord) || (w.flags.getLsbD 0 && w.flags.getLsbD 2) ||
    w.links.any fun e => (23 < e.farLink && e.farLink < 0xFF) || (11 < e.farPort && e.farPort < 0xFF)

/-! ## Legends -/

/-- The parts of a legend that do not depend on the link, with SEQ left at 0 (R284). -/
def State.legendCommon (s : State) : Bytes :=
  let v := s.survey
  layout 192
    [fld 0 1 1,
     fld 1 1 (bits
       [(0, bit1 v.coord.isSome), (1, bit1 s.mer.named), (2, bit1 v.autoOrient), (3, bit1 s.dev.degraded), (4, bit1 v.derived)]),
     fld 2 1 s.dev.fw.fabricMin.toNat, fld 3 1 s.dev.fw.fabricMax.toNat, fld 7 1 s.mer.depth.toNat,
     fld 8 6 (v.coord.getD 0).toNat, fld 14 2 s.jobTag.toNat, fld 20 4 v.sheet.id.toNat,
     (24, (List.range 12).map fun q => BitVec.ofNat 8 (bits [(0, (s.port q).state.code), (3, s.unitsOfPort q)])),
     fld 36 64 s.fuses.publicKey.toNat, fld 100 32 s.mer.rootFp.toNat, (132, s.fwMeas),
     fld 164 4 (match s.topo.chart with
       | some c => c.epoch.toNat
       | none => 0)]

/-- LINK, PORT and BEARING of link `n`, the bytes by which the legends of a module differ (R284). -/
def State.legendPlace (s : State) (n : Nat) : Bytes :=
  let q := (s.link n).port.toNat
  let (port, bearing) :=
    if q = 0xF then (0xFF, 0xFF)
    else (q, if (s.port q).bearing = 0xF then 0xFF else (s.port q).bearing.toNat)
  [BitVec.ofNat 8 n, BitVec.ofNat 8 port, BitVec.ofNat 8 bearing]

/-- The signed part of the legend for link `n`. -/
def State.legendBody (s : State) (n : Nat) : Bytes :=
  splice (splice s.legendCommon 4 (s.legendPlace n)) 16 (leBytes 4 s.survey.seq.toNat)

/-- The 19 side messages that carry a legend (R286). -/
def legendFragments (data : Bytes) : List (BitVec 128) :=
  (List.range 19).map fun i => BitVec.ofNat 128 (3 + i * 2 ^ 8 + leNat (slice data (14 * i) 14) * 2 ^ 16)

/-- Sign and send the legend of link `n`. -/
def State.sendLegend (s : State) (n : Nat) : State :=
  let body := s.legendBody n
  let (sig, s) := s.sign body
  (s.emit (.legend n (body ++ sig))).each (legendFragments (body ++ sig)) fun s m => s.sendSide n m

/-- The content of the legends: what a change of raises SEQ. -/
def State.legendContent (s : State) : Bytes := s.legendCommon ++ (List.range 24).flatMap s.legendPlace

/-- A legend's fields that survey uses. -/
structure Legend where
  flags : Nat
  levelMin : Nat
  levelMax : Nat
  link : Nat
  port : Nat
  bearing : Nat
  depth : Nat
  coord : BitVec 48
  key : Nat
  rootFp : BitVec 256
  fwMeas : Bytes
  deriving DecidableEq, Repr

def parseLegend (d : Bytes) : Legend :=
  { flags := field d 1 1, levelMin := field d 2 1, levelMax := field d 3 1, link := field d 4 1, port := field d 5 1
    bearing := field d 6 1, depth := field d 7 1, coord := BitVec.ofNat 48 (field d 8 6), key := field d 36 64
    rootFp := BitVec.ofNat 256 (field d 100 32), fwMeas := slice d 132 32 }

/-- Check 1 of R291. -/
def legendGood (d : Bytes) : Bool :=
  field d 0 1 = 1 && decide (field d 4 1 ≤ 23) && verifyRecord (field d 36 32, field d 68 32) d 192 192

/-- The fingerprint of a legend's key (R285). -/
def fingerprint (d : Bytes) : BitVec 256 := BitVec.ofNat 256 (leNat (sha256 (slice d 36 64)))

/-- The verified legend of a link. -/
def State.legendOf (s : State) (n : Nat) : Option Legend :=
  let l := s.link n
  if l.verified = some true then l.legend.map parseLegend else none

/-! ## Survey: start -/

/-- Links held DOWN by a lasting fault are free again (R369). -/
def State.freeLasting (s : State) : State :=
  s.each (List.range 24) fun s n =>
    if (s.link n).lastingDown then (s.onLink n fun l => { l with lastingDown := false }).trainLink n else s

/-- Put a port map and a wiring sheet in force; quiesced ports are free again (R227, R296). Links that are DOWN or DARK, and those that were quiesced,
train, but not at start-up, where all have just trained (R222). -/
def State.applyPorts (data : Bytes) (train : Bool) (s : State) : State :=
  let entries := portEntries data
  let w := parseSheet (data.drop 208)
  let s := s.onSurvey fun v =>
    { v with sheet := w, profile := BitVec.ofNat 8 (field data 0 1), autoOrient := natBit (field data 1 1) 0 }
  let moved := (List.range 24).filter fun n => (s.link n).state = .down || (s.link n).state = .dark || (s.link n).quiesced
  let s := s.each (List.range 24) fun s n =>
    let q := entries.findIdx? fun e => e.any fun p => p.links.contains n
    s.onLink n fun l =>
      { l with
        quiesced := false
        port := match q with
          | some q => BitVec.ofNat 4 q
          | none => 0xF }
  let s := s.each entries.zipIdx fun s e =>
    (s.onPort e.2 fun _ =>
      match e.1 with
      | none => {}
      | some p =>
        { state := .down, bearing := BitVec.ofNat 4 p.bearing, cfgBearing := BitVec.ofNat 4 p.bearing
          links := BitVec.ofNat 24 ((p.links.map fun n => 2 ^ n).sum), minUnits := p.minUnits }).unbond e.2
  let s := s.each moved fun s n => if train && (s.link n).state ≠ .disabled then s.trainLink n else s
  s.freeLasting.startSurvey

/-! ## Survey: the checks of a round -/

/-- What the checks of R291 say of a port. -/
inductive Verdict where
  /-- No link is UP, or an UP link's legend has not come yet. -/
  | waiting
  | surveyOnly (link : Nat)
  | held (cause link : Nat)
  | narrowed
  | bonds (links : List Nat)
  deriving DecidableEq, Repr

/-- DETAIL of a survey event: [7:0] the port, [15:8] the cause, [23:16] the first failing link (log entry 23). -/
def surveyDetail (q cause link : Nat) : Nat := q + cause * 256 + link * 65536

def State.sheetLink (s : State) (n : Nat) : SheetLink := s.survey.sheet.links.getD n {}

/-- Configured links of a port that are UP, usable and not meant to be dark (R288). -/
def State.liveLinks (s : State) (q : Nat) : List Nat :=
  (linksOf (s.port q).links.toNat).filter fun n =>
    (s.link n).state = .up && !(s.link n).quiesced && !(s.sheetLink n).checks.getLsbD 2

/-- Links of a port that pass check 1, with their legends. -/
def State.goodLinks (s : State) (q : Nat) : List (Nat × Legend) :=
  (s.liveLinks q).filterMap fun n => (s.legendOf n).map fun l => (n, l)

/-- The level of a link (R290). -/
def State.levelWith (s : State) (l : Legend) : Option Nat :=
  let hi := min s.dev.fw.fabricMax.toNat l.levelMax
  if max s.dev.fw.fabricMin.toNat l.levelMin ≤ hi then some hi else none

/-- Check 3: two far modules (cause 1) or a loopback (cause 5), with the first failing link. -/
def State.checkKeys (s : State) (ls : List (Nat × Legend)) : Option (Nat × Nat) :=
  match ls with
  | [] => none
  | (_, f) :: _ =>
    match ls.find? fun e => e.2.key = s.fuses.publicKey.toNat with
    | some e => some (5, e.1)
    | none => (ls.find? fun e => e.2.key ≠ f.key).map fun e => (1, e.1)

/-- Check 4: one far PORT, and the far BEARING is the port's XOR 1. -/
def checkPorts (bearing : Nat) (ls : List (Nat × Legend)) : Option (Nat × Nat) :=
  match ls with
  | [] => none
  | (_, f) :: _ => (ls.find? fun e => e.2.port ≠ f.port || e.2.bearing ≠ Nat.xor bearing 1).map fun e => (2, e.1)

/-- Check 5: the sheet's entry of each link, as far as it is set; of a re-derived port only FAR_FP (R294). -/
def State.checkSheet (s : State) (derived : Bool) (ls : List (Nat × Legend)) : Option (Nat × Nat) :=
  (ls.find? fun e =>
    let w := s.sheetLink e.1
    (!derived && ((w.farLink ≠ 0xFF && w.farLink ≠ e.2.link) || (w.farPort ≠ 0xFF && w.farPort ≠ e.2.port) ||
      (w.checks.getLsbD 0 && w.farCoord ≠ e.2.coord))) ||
    (w.checks.getLsbD 1 && w.farFp ≠ fingerprint (((s.link e.1).legend).getD []))).map fun e => (3, e.1)

/-- Check 6: the far COORD is one step along the bearing. -/
def State.checkCoord (s : State) (own : BitVec 48) (bearing : Nat) (ls : List (Nat × Legend)) : Option (Nat × Nat) :=
  (ls.find? fun e =>
    !natBit e.2.flags 0 || s.survey.sheet.rings.step bearing own ≠ some e.2.coord).map fun e => (4, e.1)

/-- The first of several checks that fails. -/
def firstSome : List (Option (Nat × Nat)) → Option (Nat × Nat)
  | [] => none
  | some x :: _ => some x
  | none :: t => firstSome t

/-- The checks of one port with bearing `b` (R291). -/
def State.checkPort (s : State) (q b : Nat) (derived : Bool) : Verdict :=
  let live := s.liveLinks q
  let ls := s.goodLinks q
  if (s.port q).quiesced || live.isEmpty || ls.isEmpty || (live.any fun n => (s.link n).verified.isNone) then .waiting
  else
    match ls.find? fun e => (s.levelWith e.2).isNone with
    | some e => .surveyOnly e.1
    | none =>
      let rest := match s.survey.coord with
        | some own => [s.checkSheet derived ls, s.checkCoord own b ls]
        | none => []
      match firstSome ([s.checkKeys ls, checkPorts b ls] ++ rest) with
      | some (cause, n) => .held cause n
      | none =>
        let units := (ls.map fun e => (s.link e.1).units).sum
        if units < max 1 (s.port q).minUnits then .narrowed else .bonds (ls.map fun e => e.1)

/-- Used ports. -/
def State.usedPorts (s : State) : List Nat := (List.range 12).filter fun q => (s.port q).state ≠ .unconfigured

/-- A port passes checks 1 to 3. -/
def State.passes3 (s : State) (q : Nat) : Bool :=
  let ls := s.goodLinks q
  !ls.isEmpty && !(s.port q).quiesced && !((s.liveLinks q).any fun n => (s.link n).verified.isNone) &&
    (ls.all fun e => (s.levelWith e.2).isSome) && (s.checkKeys ls).isNone

/-- The neighbour's coordinate on a port, when its legend has COORD_VALID. -/
def State.farCoord (s : State) (q : Nat) : Option (BitVec 48) :=
  match s.goodLinks q with
  | e :: _ => if natBit e.2.flags 0 then some e.2.coord else none
  | [] => none

/-- The far PORT on a port. -/
def State.farPortOf (s : State) (q : Nat) : Nat :=
  match s.goodLinks q with
  | e :: _ => e.2.port
  | [] => 0xFF

/-- The bearing R294 gives port `q`: the bearing that leads to its neighbour; on a ring of 2, where both do, the tie
rule between the two ports of the pair. -/
def State.derivedBearing (s : State) (own : BitVec 48) (q : Nat) : Option Nat :=
  match s.farCoord q with
  | none => none
  | some far =>
    let r := s.survey.sheet.rings
    match (List.range 12).filter fun b => r.step b own == some far with
    | [b] => some b
    | [b, _] =>
      let pair := s.usedPorts.filter fun p => s.farCoord p == some far
      let a := b / 2
      if coordAt own a < coordAt far a then
        some (if pair.all fun p => decide (q ≤ p) then 2 * a else 2 * a + 1)
      else
        some (if pair.all fun p => decide (s.farPortOf q ≤ s.farPortOf p) then 2 * a + 1 else 2 * a)
    | _ => none

/-- A port fails check 4 or check 6 with its bearing (R291). -/
def State.misplaced (s : State) (q : Nat) : Bool :=
  match s.checkPort q (s.port q).bearing.toNat false with
  | .held c _ => c = 2 || c = 4
  | _ => false

/-- The map from ports to bearings with the bearings that R294 derives for the ports that fail check 4 or check 6, when the observed neighbours form
a valid torus: those of the ports that pass checks 1 to 3 lie one step from the module. A port that fails one of these checks keeps its
bearing. -/
def State.reorientation (s : State) : Option (List (Nat × Nat)) :=
  match s.survey.coord with
  | none => none
  | some own =>
    let used := s.usedPorts
    if (used.filter s.passes3).all fun q => (s.farCoord q).any fun far => (List.range 12).any fun b => s.survey.sheet.rings.step b own == some far then
      let found := used.map fun q => (q, if s.misplaced q then s.derivedBearing own q else some (s.port q).bearing.toNat)
      let bs := found.filterMap fun e => e.2
      let cfg := used.map fun q => (s.port q).cfgBearing.toNat
      if bs.length = used.length && distinct bs && cfg.all bs.contains then
        some (found.filterMap fun e => e.2.map fun b => (e.1, b))
      else none
    else none

/-- Survey may re-derive bearings (R294). -/
def State.mayReorient (s : State) : Bool :=
  s.survey.autoOrient && s.survey.sheet.flags.getLsbD 0 && !s.survey.derived && s.usedPorts.any s.misplaced

/-- Re-derive bearings where R294 says so. -/
def State.reorient (s : State) : State :=
  if s.mayReorient then
    match s.reorientation with
    | none => s
    | some l =>
      s.each l fun s e =>
        if (s.port e.1).bearing.toNat = e.2 then s
        else
          ((s.onPort e.1 fun p => { p with bearing := BitVec.ofNat 4 e.2 }).onSurvey fun v =>
            { v with reoriented := true }).note .surveyReorient srcModule (surveyDetail e.1 e.2 0)
  else s

/-- Log an event once a survey for a port. -/
def State.onceForPort (q kind : Nat) (e : Event) (detail : Nat) (s : State) : State :=
  if s.survey.mismatchLogged.contains (16 * kind + q) then s
  else (s.onSurvey fun v => { v with mismatchLogged := (16 * kind + q) :: v.mismatchLogged }).note e srcModule detail

/-- A port's new state (R229): one that no longer carries data gives up its credits and its staged packets; one that now does tells the far end the
free buffers of its input (R257). -/
def State.setPort (q : Nat) (st : PortState) (bonded level : Nat) (s : State) : State :=
  let old := (s.port q).state
  let s := s.onPort q fun p => { p with state := st, bonded := BitVec.ofNat 24 bonded, level := BitVec.ofNat 8 level }
  let s := if old.bonded && !st.bonded then s.unbond q else if !old.bonded && st.bonded then s.sendCredits q else s
  if st = .narrow && old ≠ .narrow then s.note .portNarrow srcModule q
  else if st = .down && old.bonded then
    (s.note .portDown srcModule q).portLost q (((List.range 24).find? fun n => (s.port q).links.getLsbD n).getD 0)
  else s

/-- The check of R291 that a verdict fails, and its cause. -/
def Verdict.code : Verdict → Nat × Nat
  | .waiting => (0, 0)
  | .surveyOnly _ => (2, 0)
  | .held cause _ => (if cause = 1 || cause = 5 then 3 else cause + 2, cause)
  | .narrowed => (7, 0)
  | .bonds _ => (0, 0)

/-- Record a verdict with the links of a port, as LEGEND_FETCH reports it. -/
def State.recordVerdict (q : Nat) (v : Verdict) (s : State) : State :=
  s.each ((s.goodLinks q).map fun e => e.1) fun s n =>
    s.onLink n fun l => { l with verdict := v.code.1, cause := v.code.2 }

/-- Put the verdict of a port in force. -/
def State.applyVerdict (q : Nat) (v : Verdict) (s : State) : State :=
  match v with
  | .waiting | .narrowed => s.setPort q .down 0 0
  | .surveyOnly n => (s.setPort q .surveyOnly 0 0).onceForPort q 1 .surveyLevel (surveyDetail q 0 n)
  | .held cause n =>
    let s := (s.setPort q .held 0 0).onceForPort q 2 .surveyMismatch (surveyDetail q cause n)
    if cause = 4 && s.survey.derived then s.onceForPort q 3 .surveyCoordConflict (surveyDetail q cause n) else s
  | .bonds ls =>
    let units := (ls.map fun n => (s.link n).units).sum
    let level := ((s.goodLinks q).filterMap fun e => s.levelWith e.2).foldl min 255
    s.setPort q (if units = 2 * (s.port q).linkCount then .full else .narrow) ((ls.map fun n => 2 ^ n).sum) level

/-- Verify the legends that have come (check 1): a bad one is logged and counted. -/
def State.verifyLegends (s : State) : State :=
  s.each (List.range 24) fun s n =>
    let l := s.link n
    match l.legend, l.verified with
    | some d, none =>
      if legendGood d then s.onLink n fun l => { l with verified := some true, verdict := 0, cause := 0 }
      else
        ((s.onLink n fun l => { l with verified := some false, verdict := 1, cause := 0 }).onSurvey fun v =>
          { v with legendsBad := satInc v.legendsBad }).note .legendBad (srcLink n) (surveyDetail l.port.toNat 0 n)
    | _, _ => s

/-- An EXPECT_DARK link that comes up: SURVEY_MISMATCH with cause 6 (R288). -/
def State.darkLinks (s : State) : State :=
  s.each (List.range 24) fun s n =>
    if (s.link n).state = .up && (s.sheetLink n).checks.getLsbD 2 && !s.survey.mismatchLogged.contains (1024 + n) then
      (s.onSurvey fun v => { v with mismatchLogged := (1024 + n) :: v.mismatchLogged }).note .surveyMismatch srcModule
        (surveyDetail (s.link n).port.toNat 6 n)
    else s

/-- A neighbour with other firmware is logged once a port (R290). -/
def State.firmwareDiffers (q : Nat) (s : State) : State :=
  match (s.goodLinks q).find? fun e => e.2.fwMeas ≠ s.fwMeas with
  | some e => s.onceForPort q 4 .surveyFwDiffers (surveyDetail q 0 e.1)
  | none => s

/-- With DERIVE_COORD, take the coordinate from the lowest port that passes checks 1 to 4 (R293). -/
def State.deriveCoord (s : State) : State :=
  if s.survey.sheet.flags.getLsbD 2 && s.survey.coord.isNone then
    match s.usedPorts.find? fun q =>
        s.passes3 q && (checkPorts (s.port q).bearing.toNat (s.goodLinks q)).isNone && (s.farCoord q).isSome with
    | none => s
    | some q =>
      match (s.farCoord q).bind (s.survey.sheet.rings.step (Nat.xor (s.port q).bearing.toNat 1)) with
      | some c => s.onSurvey fun v => { v with coord := some c, derived := true }
      | none => s
  else s

/-! ## Root election (R29, R292) -/

/-- A claim: named, root fingerprint, depth at the claimant, link it came by (24 for the module's own). -/
structure RootClaim where
  named : Bool
  fp : BitVec 256
  depth : Nat
  link : Nat
  deriving DecidableEq, Repr

/-- Claim `a` ranks before claim `b`. -/
def RootClaim.before (a b : RootClaim) : Bool :=
  if a.named = b.named then decide (a.fp.toNat < b.fp.toNat) else a.named

/-- Claims heard over bonded ports. -/
def State.heardClaims (s : State) : List RootClaim :=
  ((s.usedPorts.filter fun q => (s.port q).state.bonded).flatMap s.goodLinks).filterMap fun e =>
    if e.2.depth = 0xFF then none else some ⟨natBit e.2.flags 1, e.2.rootFp, e.2.depth, e.1⟩

/-- The election of one round: the claim that ranks first is followed, the own one being among them; with two named roots, the one of the lower
fingerprint (R29). -/
def State.electRoot (s : State) : State :=
  let own : RootClaim := ⟨s.survey.sheet.flags.getLsbD 1, s.fuses.identityFp, 0, 24⟩
  let heard := s.heardClaims
  let best := heard.foldl (fun a c => if c.before a then c else a) own
  let names := (((own :: heard).filter fun c => c.named && c.depth = 0).map fun c => c.fp).eraseDups
  let s := if 1 < names.length && !s.mer.conflict then
      (s.onMer fun m => { m with conflict := true }).note .meridianConflict srcModule
    else if names.length ≤ 1 then s.onMer fun m => { m with conflict := false }
    else s
  if best.link = 24 then
    s.onMer fun m =>
      { m with
        root := true, depth := 0, upstream := 0, named := own.named, rootFp := own.fp, learned := 0, trim := 0, trimEnd := 0 }
  else
    let d := (heard.filter fun c => c.fp = best.fp && c.named = best.named).foldl (fun a c => min a c.depth) 255
    let up := (heard.filter fun c => c.fp = best.fp && c.named = best.named && c.depth = d).map fun c => c.link
    s.onMer fun m =>
      { m with
        root := false, depth := BitVec.ofNat 8 (min 254 (d + 1)), slew := none, named := best.named, rootFp := best.fp
        upstream := BitVec.ofNat 24 ((up.map fun n => 2 ^ n).sum) }

/-! ## Rounds and their end -/

/-- Send the legends of a round: on every UP link whose legend content has changed since the last one sent on it, and in the first round on every
UP link; SEQ counts the changes (R284, R289). -/
def State.sendLegends (s : State) : State :=
  let content := s.legendContent
  let plain := fun (n : Nat) => s.legendCommon ++ s.legendPlace n
  let up := (List.range 24).filter fun n => (s.link n).state = .up
  let changed := up.filter fun n => (s.link n).legendSent ≠ plain n
  let s := s.onSurvey fun v =>
    { v with sent := content, seq := if content ≠ v.sent then v.seq + 1 else v.seq
             lastChange := if changed.isEmpty then v.lastChange else s.clock.uptime }
  s.each (if s.survey.round = 0 then up else changed) fun s n => (s.sendLegend n).onLink n fun l => { l with legendSent := plain n }

/-- One round of survey. -/
def State.round (s : State) : State :=
  let s := (s.advanceTo (s.survey.began + s.survey.round * 2000000)).sendLegends
  let s := s.verifyLegends.darkLinks.deriveCoord.reorient
  let s := s.each s.usedPorts fun s q =>
    let v := s.checkPort q (s.port q).bearing.toNat ((s.port q).bearing ≠ (s.port q).cfgBearing)
    ((s.firmwareDiffers q).recordVerdict q v).applyVerdict q v
  s.electRoot.onSurvey fun v => { v with round := v.round + 1 }

/-- Survey has ended at start-up step 8: the root loads its counter (R30), every other module acquires (R35). -/
def State.surveyEnded (s : State) : State :=
  let atStart := s.dev.startStep = 8 && s.dev.surveyEnd.isNone
  let s := if atStart then s.onDev fun d => { d with surveyEnd := some s.clock.uptime } else s
  let s :=
    if atStart && s.mer.root then
      let m := match s.mer.stored with
        | some (v, t) => v + (s.clock.uptime - t)
        | none => s.clock.uptime
      s.onClock fun c => { c with meridian := m }
    else s
  let s := s.onMer fun m =>
    { m with
      stored := none
      lock := if m.root then 2 else if atStart then (if m.upstream = 0 then 0 else 1) else if m.lock = 0 && m.upstream ≠ 0 then 1 else m.lock
      good := if atStart then 0 else m.good
      bad := if atStart then 0 else m.bad
      stepped := m.stepped && !atStart
      round := [], offsets := if atStart then [] else m.offsets
      lastExchange := s.clock.uptime }
  s.tryReady

def surveyRound (s : State) : State := if s.survey.state = 1 then s.round else s

/-- SURVEY_ROUND (R289 to R294). -/
def execSurveyRound (s : State) : Out := commit s (surveyRound s)

def surveySettled (s : State) : State :=
  if s.survey.state = 1 then
    ((s.advanceTo (s.survey.lastChange + 10000000)).onSurvey fun v => { v with state := 2 }).surveyEnded
  else s

/-- SURVEY_SETTLED (R289). -/
def execSurveySettled (s : State) : Out := commit s (surveySettled s)

def surveyTimeout (s : State) : State :=
  if s.survey.state = 1 then
    let s := (s.advanceTo (s.survey.began + 1000000000)).onSurvey fun v => { v with state := 3 }
    let s := s.note .surveyTimeout srcModule
    let s := s.each (s.usedPorts.filter fun q => !(s.port q).state.bonded) fun s q => s.setPort q .down 0 0
    s.surveyEnded
  else s

/-- SURVEY_TIMEOUT (R289). -/
def execSurveyTimeout (s : State) : Out := commit s (surveyTimeout s)

/-- A complete legend on a link (R286); survey's settle time restarts when it differs from the last one. -/
def State.legendArrived (n : Nat) (d : Bytes) (s : State) : State :=
  if (s.link n).legend = some d then s
  else
    (s.onLink n fun l => { l with legend := some d, lastLegend := some d, verified := none }).onSurvey fun v =>
      { v with lastChange := if v.state = 1 then s.clock.uptime else v.lastChange }

/-- A legend fragment (R286). -/
def State.fragment (n : Nat) (msg : BitVec 128) (s : State) : State :=
  let i := natBits msg.toNat 15 8
  let part := leBytes 14 (msg.toNat / 2 ^ 16)
  let l := s.link n
  if i = 0 then s.onLink n fun l => { l with partial_ := part, nextFragment := 1 }
  else if i = l.nextFragment && i ≤ 18 && !l.partial_.isEmpty then
    let bytes := l.partial_ ++ part
    if i = 18 then
      (s.onLink n fun l => { l with partial_ := [], nextFragment := 0 }).legendArrived n (bytes.take 256)
    else s.onLink n fun l => { l with partial_ := bytes, nextFragment := i + 1 }
  else s.onLink n fun l => { l with partial_ := [], nextFragment := 0 }

def legendFragment (link : Fin 24) (msg : BitVec 128) (s : State) : State :=
  if (s.link link.val).state = .up then
    (if natBits msg.toNat 7 0 = 3 then s.fragment link.val msg
     else s.onLink link.val fun l => { l with badSide := l.badSide + 1 })
  else s

/-- LEGEND_FRAGMENT (R286, R310). -/
def execLegendFragment (link : Fin 24) (msg : BitVec 128) (s : State) : Out := commit s (legendFragment link msg s)

/-! ## Commands of mailbox 3 that survey answers (R295, R406) -/

/-- PORT_CONFIG's work. -/
def State.configPorts (data : Bytes) (c : Cmd) (s : State) : State :=
  if s.job.bind.isSome then s.finish 3 c 0x0209
  else if badPortMap data then s.finish 3 c 0x0112
  else if s.badSheet (parseSheet (data.drop 208)) then s.finish 3 c 0x0115
  else (s.applyPorts data true).finish 3 c 0

def portConfig (c : Cmd) (data : Bytes) (s : State) : State :=
  s.command 3 0x0301 c true (State.configPorts data c)

/-- PORT_CONFIG (R227, R287, R295). -/
def execPortConfig (c : Cmd) (data : Bytes) (s : State) : Out := commit s (portConfig c data s)

/-- QUIESCE's work (R296). -/
def State.quiescePorts (mask : BitVec 16) (c : Cmd) (s : State) : State :=
  if s.job.bind.isSome then s.finish 3 c 0x0209
  else
    let ports := s.usedPorts.filter fun q => mask.getLsbD q
    let s := s.each ports fun s q => (s.onPort q fun p => { p with state := .down, bonded := 0, quiesced := true }).unbond q
    let links := (List.range 24).filter fun n => ports.contains (s.link n).port.toNat
    (s.each links fun s n => s.onLink n fun l =>
      { l with quiesced := true, inService := false, state := if l.state = .training then .down else l.state }).finish 3 c 0

def quiesce (c : Cmd) (mask : BitVec 16) (s : State) : State :=
  s.command 3 0x0302 c false (State.quiescePorts mask c)

/-- QUIESCE (R296). -/
def execQuiesce (c : Cmd) (mask : BitVec 16) (s : State) : Out := commit s (quiesce c mask s)

/-- SURVEY's work. -/
def State.surveyAgain (c : Cmd) (s : State) : State :=
  if s.job.bind.isSome then s.finish 3 c 0x0209 else s.freeLasting.startSurvey.finish 3 c 0

def survey (c : Cmd) (s : State) : State := s.command 3 0x0303 c false (State.surveyAgain c)

/-- SURVEY (R289, R295). -/
def execSurvey (c : Cmd) (s : State) : Out := commit s (survey c s)

/-- The record of a link for LEGEND_FETCH: the legend, then its check result and cause (R406). -/
def State.legendRecord (s : State) (n : Nat) : Bytes :=
  let l := s.link n
  slice (l.lastLegend.getD []) 0 256 ++ [BitVec.ofNat 8 l.verdict, BitVec.ofNat 8 l.cause, 0, 0]

def legendFetch (c : Cmd) (s : State) : State :=
  s.command 3 0x0304 c false fun s => s.finishWith 3 c ((List.range 24).flatMap s.legendRecord)

/-- LEGEND_FETCH (R406). -/
def execLegendFetch (c : Cmd) (s : State) : Out := commit s (legendFetch c s)

end Sys2Proof.Machine
end

