-- ==== Sys2Proof/Machine/Links.lean ====
section
/-! DEFINITION. Fabric links: training and width (R222, R223), error rates and retraining in service (R224, R225), groups and link-level
retry (R215 to R219). -/
namespace Sys2Proof.Machine

/-! ## Width -/

/-- The width a set of trained lanes gives: four lanes, or pair A or B; none otherwise (R223). -/
def pickWidth (lanes : BitVec 4) : Option (Bool × Bool) :=
  if lanes = 0xF then some (true, false)
  else if lanes &&& 3 = 3 then some (false, false)
  else if lanes &&& 0xC = 0xC then some (false, true)
  else none

/-- The module retries training only in these states (R224). -/
def State.inService (s : State) : Bool :=
  s.dev.state == .ready || s.dev.state == .running || s.dev.state == .draining

/-- A link comes up at the width of R223. After retraining in service it resends every held group after the far end's RESUME, in order and before
any new group, cut anew where the width has changed; else RESUME is ignored (R225). With no job bound the change starts a survey (R289). -/
def State.comeUp (n : Nat) (lanes : BitVec 4) (wide pairB : Bool) (s : State) : State :=
  let l := s.link n
  let s := s.onLink n fun l =>
    { l with state := .up, wide, pairB, lanesOk := lanes, nak := false, inService := false, farLanes := none, resume := none }
  let s := match l.resume, l.inService with
    | some r, true => if l.wide = wide then s.resendAfter n r else s.onLink n (Link.recutAfter r)
    | _, _ => s.onLink n Link.restart
  let s := (s.pump n).pumpSide n
  let s := if wide then s else s.note .linkNarrow (srcLink n) (bit1 (!pairB))
  (if l.inService then s.linkChanged n false (l.wide && !wide) else s).linkNews

/-- Training ends without a usable width: the link is DOWN. -/
def State.trainingFailed (n : Nat) (lanes : BitVec 4) (s : State) : State :=
  let logs := (s.link n).inService
  let s := s.onLink n fun l => { l with inService := false, farLanes := none, lanesOk := lanes }
  let s := s.dropLink n
  if logs then (s.note .linkDown (srcLink n)).linkNews else s

/-- Training ends with these lanes trained in both directions. -/
def State.endTraining (n : Nat) (lanes : BitVec 4) (s : State) : State :=
  match pickWidth lanes with
  | some (wide, pairB) => s.comeUp n lanes wide pairB
  | none => s.trainingFailed n lanes

/-! ## Training -/

def linkDark (link : Fin 24) (s : State) : State :=
  let n := link.val
  if (s.link n).state = .training && !(s.link n).inService then
    (s.advanceTo ((s.link n).triedAt + 10000000)).onLink n fun l => { l with state := .dark }
  else s

/-- LINK_DARK: no light on any lane 10 ms after training began (R222 phase 1). -/
def execLinkDark (link : Fin 24) (s : State) : Out := commit s (linkDark link s)

/-- The width agreement that this end sends: the lanes trained, and RESUME (R218, R223, R225). -/
def agreement (lanes : BitVec 4) (resume : Byte) : BitVec 128 := BitVec.ofNat 128 (4 + lanes.toNat * 2 ^ 8 + resume.toNat * 2 ^ 16)

def widthAgreement (link : Fin 24) (msg : BitVec 128) (ownLanes : BitVec 4) (s : State) : State :=
  let n := link.val
  if (s.link n).state = .training && natBits msg.toNat 7 0 = 4 then
    let far : BitVec 4 := BitVec.ofNat 4 (natBits msg.toNat 11 8)
    let s := s.onLink n fun l => { l with farLanes := some far, resume := some (BitVec.ofNat 8 (natBits msg.toNat 23 16)) }
    let s := s.sendSide n (agreement ownLanes (s.link n).rxSeq)
    if (s.link n).inService then s
    else
      match pickWidth (far &&& ownLanes) with
      | some (wide, pairB) => s.comeUp n (far &&& ownLanes) wide pairB
      | none => s.onLink n fun l => { l with lanesOk := far &&& ownLanes }
  else s

/-- WIDTH_AGREEMENT (R223, R225): at start-up the link takes its width at once; without a usable one, phases 2 to 6
run again until step 7 ends. In service it keeps the far end's lanes and RESUME for the end of training. -/
def execWidthAgreement (link : Fin 24) (msg : BitVec 128) (ownLanes : BitVec 4) (s : State) : Out :=
  commit s (widthAgreement link msg ownLanes s)

/-- The 10 s of R224 since the link's last training. -/
def linkRetryTimer (link : Fin 24) (s : State) : State :=
  let n := link.val
  let l := s.link n
  if s.inService && (l.state = .down || l.state = .dark) && !l.lastingDown && !l.quiesced then
    (s.advanceTo (l.triedAt + 10000000000)).trainLink n
  else s

/-- LINK_RETRY_TIMER (R224). -/
def execLinkRetryTimer (link : Fin 24) (s : State) : Out := commit s (linkRetryTimer link s)

/-- Retrain a link in service, but for a quiesced one, which makes no training attempt (R296); DETAIL is the cause: 0 retry exhausted, 1 error rate, 2 loss of light (log entry 23). -/
def State.retrainLink (n cause : Nat) (s : State) : State :=
  if (s.link n).state = .up && !(s.link n).quiesced then
    let s := s.onLink n fun l =>
      { l with state := .training, inService := true, retrains := satInc l.retrains, triedAt := s.clock.uptime
               resume := none, farLanes := none }
    s.fault .linkRetrain (srcLink n) cause
  else s

/-- One lane's window (R224). -/
def State.laneBer (n : Nat) (s : State) (e : Nat × Nat) : State :=
  if 10000000 < e.1 && (s.link n).lanesOk.getLsbD e.2 then s.fault .laneBer (srcLink n) e.2 else s

def laneBerWindow (link : Fin 24) (b0 b1 b2 b3 : Nat) (s : State) : State :=
  let n := link.val
  if (s.link n).state = .up then
    let lanes := [b0, b1, b2, b3].zipIdx
    let worst := lanes.foldl (fun a e => if (s.link n).lanesOk.getLsbD e.2 then max a e.1 else a) 0
    let s := s.onLink n fun l => { l with berWorst := BitVec.ofNat 32 (min worst 0xFFFFFFFF) }
    let s := s.each lanes (State.laneBer n)
    if 100000000 < worst then s.retrainLink n 1 else s
  else s

/-- LANE_BER_WINDOW (R224): rates in units of 10^−12. -/
def execLaneBerWindow (link : Fin 24) (b0 b1 b2 b3 : Nat) (s : State) : Out :=
  commit s (laneBerWindow link b0 b1 b2 b3 s)

def laneLightLoss (link : Fin 24) (lane : Fin 4) (s : State) : State :=
  let l := s.link link.val
  if l.lanesOk.getLsbD lane.val && l.state = .up then
    (if l.quiesced then s.emptyLink link.val .dark else s.retrainLink link.val 2)
  else s

/-- LANE_LIGHT_LOSS (R225): a quiesced link goes DARK without an event and without training (R296). -/
def execLaneLightLoss (link : Fin 24) (lane : Fin 4) (s : State) : Out := commit s (laneLightLoss link lane s)

def linkRetrainDone (link : Fin 24) (lanes : BitVec 4) (s : State) : State :=
  let l := s.link link.val
  if l.state = .training then s.endTraining link.val (lanes &&& l.farLanes.getD 0) else s

/-- LINK_RETRAIN_DONE (R223, R225): a lane is trained that has passed here and, by the width agreement received, at the far end. -/
def execLinkRetrainDone (link : Fin 24) (lanes : BitVec 4) (s : State) : Out := commit s (linkRetrainDone link lanes s)

/-! ## Groups and retry (R216, R219) -/

/-- A codeword decodes with at most 15 of its symbols wrong, or where the decoder takes it for another codeword (R215, R220). -/
def codewordDecodes (c : Codeword) : Bool := decide (c.wrong ≤ 15) || c.miscorrected

/-- SEQ, ACK and NAK of a link field (R216). -/
def fieldSeq (f : BitVec 20) : Byte := BitVec.ofNat 8 (natBits f.toNat 7 0)
def fieldAck (f : BitVec 20) : Byte := BitVec.ofNat 8 (natBits f.toNat 15 8)
def fieldNak (f : BitVec 20) : Bool := natBit f.toNat 16

/-- Groups up to ACK have been received: the retry buffer lets go of them, and waiting data go out. -/
def State.takeAckOf (n : Nat) (ack : Byte) (s : State) : State :=
  (s.onLink n fun l => match l.held.findIdx? fun h => h.seq = ack with
    | some i => { l with held := l.held.drop (i + 1) }
    | none => l).pump n

/-- The link field of a lane that decodes: on NAK every held group after ACK is sent again before any new one (R219). -/
def State.linkField (n : Nat) (f : BitVec 20) (s : State) : State :=
  if fieldNak f then (s.resendAfter n (fieldAck f)).takeAckOf n (fieldAck f) else s.takeAckOf n (fieldAck f)

/-- The receiver's side (R219): a group with a codeword that does not decode is discarded, as is every later one until the resend; the next
group in order is taken and ends a NAK. A group of idle data repeats the last SEQ. -/
def Link.received (g : Group) (seq : Byte) (l : Link) : Link :=
  let bad := (g.lanes.filter fun c => !codewordDecodes c).length
  if bad ≠ 0 then { l with nak := true, uncorrectable := satAdd l.uncorrectable bad }
  else if seq = l.rxSeq + 1 then { l with rxSeq := seq, nak := false }
  else l

def groupReceived (link : Fin 24) (g : Group) (s : State) : State :=
  let n := link.val
  if (s.link n).state = .up && g.lanes.length = (s.link n).lanes.length then
    match g.lanes.find? codewordDecodes with
    | some c => (s.onLink n (Link.received g (fieldSeq c.link))).linkField n c.link
    | none => (s.onLink n (Link.received g 0)).pump n
  else s

/-- GROUP_RECEIVED (R215 to R219). -/
def execGroupReceived (link : Fin 24) (g : Group) (s : State) : Out := commit s (groupReceived link g s)

def linkRetryExhausted (link : Fin 24) (s : State) : State :=
  let n := link.val
  if (s.link n).state = .up && ((s.link n).held.any fun h => 8 ≤ h.resent) then
    (s.fault .linkRetryExhausted (srcLink n)).retrainLink n 0
  else s

/-- LINK_RETRY_EXHAUSTED (R219). -/
def execLinkRetryExhausted (link : Fin 24) (s : State) : Out := commit s (linkRetryExhausted link s)

end Sys2Proof.Machine
end

