-- ==== Sys2Proof/Machine/Retrain.lean ====
section
/-! DEFINITION. Retraining of HBM channels: which are due, and when one starts (R199, R202, R213). -/
namespace Sys2Proof.Machine

/-- The stacks and hubs are powered and trained (R21, R414 step 6). -/
def State.hbmUp (s : State) : Bool := s.dev.mainOn && decide (6 ≤ s.dev.stepEnds.length)

/-- Uptime and temperature of a hub channel's last training; of a stack that had reported none, the temperature it reads now. -/
def State.lastTraining (s : State) (h k : Nat) : Nat × Int :=
  let t := s.stack (stackOf h k)
  (Tab.get none k (s.hub h).trained).getD (t.trained.1, t.trained.2.getD t.heat.temp)

/-- The channel may retrain now: no other of its hub does, and its stack has no copy running (R199, R202, R213). -/
def State.mayRetrain (s : State) (h k : Nat) : Bool :=
  (s.hub h).retraining.isNone && !((s.hub h).repair.any fun r => r.chan / 31 = k / 31) &&
    !(s.stack (stackOf h k)).stopped

/-- Retraining of a channel starts. -/
def State.startRetrain (h k : Nat) (s : State) : State :=
  (s.onHub h fun v => { v with retraining := some k, retries := 0 }).onPower fun p => { p with background := true }

/-- The due channel of a hub that retrains next: due longest, then the lower number, among those that may (R199). -/
def State.nextDue (s : State) (h : Nat) (overdueOnly : Bool) : Option Nat :=
  let v := s.hub h
  ((v.due.filter fun e => s.mayRetrain h e.1 && (!overdueOnly || v.overdue.contains e.1)).foldl
    (fun (a : Option (Nat × Nat)) e =>
      match a with
      | none => some e
      | some b => if e.2 < b.2 || (e.2 = b.2 && e.1 < b.1) then some e else a) none).map fun e => e.1

/-- Start the hub's next due channel. -/
def State.startDue (h : Nat) (overdueOnly : Bool) (s : State) : State :=
  match s.nextDue h overdueOnly with
  | some k => s.startRetrain h k
  | none => s

/-- With no job bound, retraining runs whenever a channel is due (R199). -/
def State.startIdle (h : Nat) (s : State) : State := if s.job.bind.isNone then s.startDue h false else s

/-- A channel becomes due; with no job bound its retraining runs as soon as it may (R199). -/
def State.makeDue (h k : Nat) (s : State) : State :=
  let s :=
    if (s.hub h).due.any fun e => e.1 = k then s
    else s.onHub h fun v => { v with due := v.due ++ [(k, s.clock.uptime)] }
  s.startIdle h

/-- The stack moved by 8 °C (64 units of 0.125 °C) since the channel's last training (R199). -/
def State.movedSince (s : State) (h k : Nat) : Bool :=
  decide (64 ≤ ((s.stack (stackOf h k)).heat.temp - (s.lastTraining h k).2).natAbs)

/-- The channel is no longer due. -/
def State.undue (h k : Nat) (s : State) : State :=
  s.onHub h fun v => { v with due := v.due.filter fun e => e.1 ≠ k, overdue := v.overdue.filter fun c => c ≠ k }

end Sys2Proof.Machine
end

