-- ==== Sys2Proof/Machine/Startup.lean ====
section
/-! DEFINITION. 48 V, start-up steps and sideband signals (R414, R420, R432, R435), the control-die checks (R19, R374), the
alert floor (R336, R346, R347) and the temperature ladders (R27, R205, R340, R348, R349). -/
namespace Sys2Proof.Machine

/-! ## Input voltage -/

def powerApplied (s : State) : State :=
  if s.dev.vin48 then s
  else
    let t := { State.reset with fuses := s.fuses, regs := { mirror := mirrorReset s.fuses }, free := s.free, emitted := s.emitted }
    ((t.onDev fun d => { d with state := .off, heldCause := 0 }).enter .held).onDev fun d => { d with heldCause := 1 }

/-- POWER_APPLIED (R390, R414 step 1): 48 V returns after a loss. -/
def execPowerApplied (s : State) : Out := commit s (powerApplied s)

/-- The entries logged before the management port was served are sent when it is (R357, log entry 144). -/
def State.sendHeld (s : State) : State := s.each (s.log.first ++ s.log.ring) fun s e => s.emit (s.eventDatagram e)

def standbyRegulation (ok : Bool) (s : State) : State :=
  if s.dev.vin48 && !s.dev.standbyOn && s.dev.startStep = 2 then
    if ok then
      let s := (s.onDev fun d => { d with standbyOn := true }).sendHeld
      (s.endStep.endStep).onCofin fun c => { c with trying := some .gen3 }
    else s.onDev fun d => { d with state := .off, heldCause := 0 }
  else s

/-- STANDBY_REGULATION (R414 steps 2 and 3): the control dies run boot ROM and train the Cofin port. On a failure no state
is reached. -/
def execStandbyRegulation (ok : Bool) (s : State) : Out := commit s (standbyRegulation ok s)

def inputLoss (s : State) : State := if s.dev.vin48 then s.powerLost else s

/-- INPUT_LOSS: below 34 V (R432). -/
def execInputLoss (s : State) : Out := commit s (inputLoss s)

def inputOvervoltage (s : State) : State :=
  if s.dev.vin48 && s.dev.standbyOn then
    let s := (s.note .inputOvervoltage srcCarrier).moduleReset causeOvervolt 5
    (s.onDev fun d => { d with overvolt := true }).onMgmt fun m => { m with thermTrip := true }
  else s

/-- INPUT_OVERVOLTAGE: above 62 V for 10 µs (R432, R435). -/
def execInputOvervoltage (s : State) : Out := commit s (inputOvervoltage s)

/-- Firmware runs and a configuration is in force: step 4 ends, and the main domain is to be powered (R390, R414). -/
def State.endHeld (s : State) : State :=
  if s.dev.state = .held && s.dev.firmware && s.dev.config.isSome && !s.dev.overvolt && !s.dev.thermalHold then
    ((s.onDev fun d => { d with startStep := 4, stepEnds := d.stepEnds.take 3 }).endStep).enter .initialising
  else s

def overvoltageRecovery (s : State) : State :=
  if s.dev.overvolt then
    let s := (s.onDev fun d => { d with overvolt := false }).onMgmt fun m => { m with thermTrip := s.dev.thermalHold }
    let s := if s.dev.state = .held && s.dev.firmware then s.onDev fun d => { d with heldCause := 3 } else s
    s.endHeld
  else s

/-- OVERVOLTAGE_RECOVERY: below 60 V for 100 ms (R432). -/
def execOvervoltageRecovery (s : State) : Out := commit s (overvoltageRecovery s)

/-! ## Resets from outside -/

def modReset (lowNs : Nat) (s : State) : State :=
  if s.dev.vin48 && s.dev.standbyOn && !s.dev.romRestart && decide (10000 ≤ lowNs) then
    s.requestReset .module 0 causePin
  else s

/-- MOD_RESET_N low for at least 10 µs (R435, R442). -/
def execModReset (lowNs : Nat) (s : State) : Out := commit s (modReset lowNs s)

def controlMismatch (s : State) : State :=
  if s.dev.standbyOn then (s.note .controlMismatch srcControl).moduleReset causeMismatch 4 else s

/-- CONTROL_MISMATCH (R19). -/
def execControlMismatch (s : State) : Out := commit s (controlMismatch s)

def controlWatchdog (s : State) : State :=
  if s.dev.standbyOn then (s.note .controlWatchdog srcControl).moduleReset causeWatchdog 7 else s

/-- CONTROL_WATCHDOG (R374). -/
def execControlWatchdog (s : State) : Out := commit s (controlWatchdog s)

/-! ## Start-up steps 5 to 8 -/

/-- A record with the soft repairs of a defect-map entry (R419). -/
def softRepair (r : BitVec 16) (row col : Option Nat) : BitVec 16 :=
  let fr := natBits r.toNat 6 0
  let fc := natBits r.toNat 13 8
  let nr := row.getD fr
  let nc := col.getD fc
  if nr = fr && nc = fc then r
  else BitVec.ofNat 16 (bits [(0, nr), (8, nc), (14, 1), (15, natBits r.toNat 15 15)])

/-- The defect-map entry of a core. -/
def State.defect (s : State) (p : Nat) : Defect :=
  match s.dev.config with
  | some c => Tab.get {} p c.defects
  | none => {}

/-- Write the soft repairs into the array records. -/
def State.applyRepairs (s : State) : State :=
  s.each (List.range 128) fun s p =>
    if s.fuses.disabled.contains p then s
    else
      s.each [0, 1, 2, 3] fun s a =>
        let d := s.defect p
        let old := s.fusedArray (4 * p + a)
        let new := softRepair old ((d.rows.getD a none)) ((d.cols.getD a none))
        if new = old then s else s.onRepairs (Tab.set 0 (4 * p + a) new)

/-- The fuses allow the core, and none of its arrays is UNUSABLE (R98, R420). -/
def State.soundCore (s : State) (p : Nat) : Bool :=
  !s.fuses.disabled.contains p && [0, 1, 2, 3].all fun a => !(s.arrayRecord (4 * p + a)).getLsbD 15

/-- Take surplus cores from the fullest hubs, the highest core first (R420). -/
def dropSurplus : Nat → List Nat → List Nat
  | 0, l => l
  | n + 1, l =>
    if l.length ≤ 120 then l
    else
      let count := fun h => (l.filter fun p => hubOf p = h).length
      let h := (List.range 8).foldl (fun a i => if count a ≤ count i then i else a) 0
      let p := (l.filter fun p => hubOf p = h).foldl max 0
      dropSurplus n (l.filter fun q => q ≠ p)

/-- Give logical numbers in physical order; each core has passed the field test of step 5. -/
def State.assignCores (usable : List Nat) (s : State) : State :=
  let s := s.onCoreMap fun _ => usable
  let now := s.clock.uptime
  (s.each usable.zipIdx fun s e => s.onCore e.1 fun c =>
    { c with logical := BitVec.ofNat 8 e.2, test := { c.test with lastPass := now, state := .passed } }).countTwins

def mainDomainPowered (ok : Bool) (testFailed : List (Fin 128)) (s : State) : State :=
  if s.dev.state = .initialising && s.dev.startStep = 5 then
    if !ok then s.failStep 5 3
    else
      let s := (s.onDev fun d => { d with mainOn := true, degraded := false }).applyRepairs
      let s := s.onInteg fun v => { v with twinBarred := [], commits := [], testTurn := 0 }
      let tested := (List.range 128).filter fun p => s.soundCore p && !(s.defect p).exclude
      let bad := tested.filter fun p => testFailed.any fun f => f.val = p
      let s := s.each bad fun s p => s.note .coreExcluded (srcCore p)
      let usable := tested.filter fun p => !bad.contains p
      let s := s.onInteg fun v =>
        { v with passed := satAdd v.passed usable.length, failed := satAdd v.failed bad.length }
      if usable.length < 120 then
        (s.failStep 5 3).onDev fun d => { d with config := none }
      else
        let s := (s.assignCores (dropSurplus 8 usable)).endStep
        let s := s.onPower fun p => { p with cmpVolts := cmpMillivolts p.localContour }
        if s.power.causes.isEmpty then s else s.onPower Power.enterFloor
  else s

/-- MAIN_DOMAIN_POWERED (R414 step 5, R419, R420). -/
def execMainDomainPowered (ok : Bool) (testFailed : List (Fin 128)) (s : State) : Out :=
  commit s (mainDomainPowered ok testFailed s)

/-- Failed physical channels of a stack after start-up training. -/
def failedOf (t : Nat) (failed : List (Fin 24 × Fin 32)) : List Nat :=
  ((failed.filter fun e => e.1.val = t).map fun e => e.2.val).eraseDups

/-- A stack can carry its 31 logical channels. -/
def stackWhole (f : List Nat) : Bool :=
  f.isEmpty || f.length = 1

/-- The stack after start-up training: its spare serves a failed channel, or is failed itself (R189, R204). -/
def State.stackTrained (failed : List (Fin 24 × Fin 32)) (s : State) (t : Nat) : State :=
  let spare := s.spareOf t
  s.onStack t fun v =>
    -- a stack that has reported no temperature takes its first reading as the one it trained at (log entry 141)
    let v := { v with trained := (s.clock.uptime, if v.heat = {} then none else some v.heat.temp) }
    match failedOf t failed with
    | [] => v
    | f :: _ =>
      if f = spare then { v with spareBad := true }
      else { v with spareUsed := true, replaced := BitVec.ofNat 5 (if f < spare then f else f - 1) }

/-- Links that the licence set enables (R8, R222). -/
def State.enabledLinks (s : State) : List Nat :=
  (List.range 24).filter fun n => n < 16 || s.licensed 1

def hbmTrainingDone (failed : List (Fin 24 × Fin 32)) (s : State) : State :=
  if s.dev.state = .initialising && s.dev.startStep = 6 then
    let bad := (List.range 24).filter fun t => !stackWhole (failedOf t failed)
    if !bad.isEmpty then
      (s.each bad fun s t => s.note .hbmNoSpare (srcStack t)).failStep 6 6
    else
      let s := (s.each (List.range 24) (State.stackTrained failed)).endStep
      s.each s.enabledLinks fun s n => s.trainLink n
  else s

/-- HBM_TRAINING_DONE (R414 step 6, R204); link training begins (R222). -/
def execHbmTrainingDone (failed : List (Fin 24 × Fin 32)) (s : State) : Out := commit s (hbmTrainingDone failed s)

/-- The port section of the stored configuration marks a link EXPECT_DARK (R288, R418). -/
def State.expectsDark (s : State) (n : Nat) : Bool :=
  match s.dev.config with
  | some c => c.ports && (((parseSheet (c.bytes.drop 2320)).links[n]?).any fun e => e.checks.getLsbD 2)
  | none => false

/-- A link that is not UP when step 7 ends (R222). -/
def State.linkNotUp (s : State) (n : Nat) : State :=
  let st := (s.link n).state
  if st = .training then (s.onLink n fun l => { l with state := .down }).note .linkDown (srcLink n)
  else if (st = .dark && !s.expectsDark n) || st = .down then s.note .linkDown (srcLink n)
  else s

/-- Step 8 begins: survey, with the configuration's port section (R414, R418). -/
def State.beginSurvey (s : State) : State :=
  match s.dev.config with
  | some c => if c.ports then s.applyPorts (c.bytes.drop 2112) false else s.startSurvey
  | none => s.startSurvey

def linkTrainingEnd (s : State) : State :=
  if s.dev.state = .initialising && s.dev.startStep = 7 then
    let s := s.advanceTo (((s.dev.stepEnds.getLast?).getD 0 + 120) * 1000000)
    let s := (s.each (List.range 24) State.linkNotUp).endStep
    s.beginSurvey.onDev fun d => { d with surveyEnd := none }
  else s

/-- LINK_TRAINING_END (R222, R414 step 7). -/
def execLinkTrainingEnd (s : State) : Out := commit s (linkTrainingEnd s)

def startStepSlow (s : State) : State :=
  match s.dev.surveyEnd with
  | some t =>
    if s.dev.startStep = 8 && s.mer.lock ≠ 2 && !s.dev.slow then
      ((s.advanceTo (t + 2000000000)).onDev fun d => { d with slow := true }).note .startStepSlow srcModule
    else s
  | none => s

/-- START_STEP_SLOW (R414): not Locked 2 s after survey ended. -/
def execStartStepSlow (s : State) : Out := commit s (startStepSlow s)

/-! ## The alert floor (R346, R347) -/

/-- The bit of a cause in the detail of ALERT_FLOOR (log entry 23). -/
def alertBit : AlertCause → Nat
  | .pin => 1
  | .power => 2
  | .inputLow => 4
  | .capUnmet => 8

/-- VR_ALERT_N is the module's own for the second and third causes. -/
def alertOwn (c : AlertCause) : Bool := c == .power || c == .inputLow

/-- An alert cause arises: the floor is entered and logged once while it holds; without the main domain it is only
logged (R351). -/
def State.alert (c : AlertCause) (s : State) : State :=
  if s.power.causes.contains c then s
  else
    let s := s.onPower fun p => { p with causes := p.causes ++ [c], holdEnd := none, holdDone := false }
    let s := if alertOwn c then s.onMgmt fun m => { m with vrAlert := true } else s
    let detail := (s.power.causes.map alertBit).sum
    if s.power.floor then s
    else
      let s := if s.dev.mainOn then
          s.onPower Power.enterFloor
        else s
      s.note .alertFloor srcCarrier detail

def alertFloor (cause : AlertCause) (s : State) : State :=
  if !s.dev.standbyOn then s
  else if cause = .capUnmet then
    (if s.power.unmetDue then (s.onPower fun p => { p with unmetDue := false, capUnmet := true }).alert .capUnmet else s)
  else s.alert cause

/-- ALERT_FLOOR (R346, R347, R351, R442). -/
def execAlertFloor (cause : AlertCause) (s : State) : Out := commit s (alertFloor cause s)

/-- A cause ends; when it was the last, the hold begins (R347). -/
def State.alertEnds (c : AlertCause) (s : State) : State :=
  if s.power.causes.contains c then
    let s := s.onPower fun p => { p with causes := p.causes.filter fun x => x ≠ c }
    let s := s.onMgmt fun m => { m with vrAlert := s.power.causes.any alertOwn }
    if s.power.causes.isEmpty then
      s.onPower fun p => { p with holdEnd := some (s.clock.uptime + 1000 * p.floorHoldUs) }
    else s
  else s

/-- ALERT_CAUSE_ENDS (R347, R435). -/
def execAlertCauseEnds (cause : AlertCause) (s : State) : Out := commit s (s.alertEnds cause)

def floorHoldEnd (s : State) : State :=
  match s.power.holdEnd with
  | none => s
  | some t =>
    let s := s.advanceTo t
    if s.power.floor && s.job.bind.isNone then s.leaveFloor else s.onPower fun p => { p with holdEnd := none, holdDone := true }

/-- FLOOR_HOLD_END (R347): the clocks return at the next tick, or at once where no job gives ticks. -/
def execFloorHoldEnd (s : State) : Out := commit s (floorHoldEnd s)

def powerOverCap (milliwatts : Nat) (s : State) : State :=
  if s.dev.mainOn && decide (s.power.capAt + 10000000 ≤ s.clock.uptime) && decide (102 * s.power.capW * 1000 < 100 * milliwatts) then
    if s.job.bind.isSome && decide (3 ≤ s.job.contour) then (s.onPower fun p => { p with unmetDue := true }).note .powerCapUnmet srcCarrier
    else
      let s := s.note .powerOverCap srcCarrier milliwatts
      if s.job.bind.isSome then s.onPower fun p => { p with raise := max p.raise (s.job.contour + 1) } else s
  else s

/-- POWER_OVER_CAP (R336): the 10 ms average in mW. One that began before CAP_W last changed is not judged (R351). -/
def execPowerOverCap (milliwatts : Nat) (s : State) : Out := commit s (powerOverCap milliwatts s)

/-! ## Temperatures: units of 0.125 °C -/

/-- A ladder: thresholds to enter warm, hot and critical, and those to leave warm and hot (R205, R348). -/
structure Ladder where
  warm : Int
  hot : Int
  critical : Int
  coolWarm : Int
  coolHot : Int
  deriving DecidableEq, Repr

def stackLadder : Ladder := ⟨680, 760, 840, 656, 736⟩
/-- The trip at 115 °C is a step of its own (R349). -/
def dieLadder : Ladder := ⟨760, 840, 1000000, 736, 800⟩

/-- The level after a reading; a reading at a threshold counts as reached. -/
def Ladder.next (l : Ladder) (old : Heat) (t : Int) : Heat :=
  if old = .critical || l.critical ≤ t then .critical
  else if l.hot ≤ t || (old = .hot && l.coolHot ≤ t) then .hot
  else if l.warm ≤ t || (old ≠ .normal && l.coolWarm ≤ t) then .warm
  else .normal

/-- Levels entered between two levels, in order. -/
def heatEntered (old new : Heat) : List Heat :=
  [Heat.warm, .hot, .critical].filter fun h => old.code < h.code && h.code ≤ new.code

/-- Some die or stack is warm. -/
def State.anyWarm (s : State) : Bool :=
  (s.power.dies.any fun e => e.2.level ≠ .normal) || (s.hbmStacks.any fun e => e.2.heat.level ≠ .normal)

/-- A unit's record after a reading: the temperature from which a cooling of 1 °C in 10 ms is judged (R340). The second
answer says that 10 ms have passed without it. -/
def Warmth.step (now : Nat) (l : Ladder) (t : Int) (w : Warmth) : Warmth × Bool :=
  let lvl := l.next w.level t
  if w.level = .normal then ({ level := lvl, temp := t, since := now, low := t }, false)
  else if t + 8 ≤ w.low then ({ level := lvl, temp := t, since := now, low := t }, false)
  else if w.since + 10000000 ≤ now then ({ level := lvl, temp := t, since := w.since + 10000000, low := t }, true)
  else ({ w with level := lvl, temp := t }, false)

/-- The thermal term T of R340 after a reading: several units that stay warm raise it once in 10 ms (log entry 132). -/
def State.thermalTerm (first late : Bool) (s : State) : State :=
  let now := s.clock.uptime
  if !s.anyWarm then s.onPower fun p => { p with thermal := 0 }
  else if first then s.onPower fun p => { p with thermal := max p.thermal (min 3 (s.job.contour + 1)), thermalAt := now }
  else if late && decide (s.power.thermalAt + 10000000 ≤ now) then
    s.onPower fun p => { p with thermal := min 3 (p.thermal + 1), thermalAt := now }
  else s

/-- A die's reading on its ladder. -/
def State.dieReading (src : Nat) (t : Int) (s : State) : State :=
  let old := Tab.get {} src s.power.dies
  let first := !s.anyWarm
  let (w, late) := old.step s.clock.uptime dieLadder t
  let s := s.onPower fun p => { p with dies := Tab.set {} src w p.dies }
  let s := s.each (heatEntered old.level w.level) fun s h =>
    s.note (if h = .warm then .dieWarm else .dieHot) src (temp16 t)
  s.thermalTerm first late

/-- The trip's hold ends when every die reads below 70 °C (R349, R435). -/
def State.checkThermalHold (s : State) : State :=
  if s.dev.thermalHold && dieKeys.all fun k => decide ((Tab.get {} k s.power.dies).temp < 560) then
    (s.onDev fun d => { d with thermalHold := false }).onMgmt fun m => { m with thermTrip := s.dev.overvolt }
  else s

def dieTemperatureReading (die : Die) (temp : Int) (s : State) : State :=
  let src := srcDie die
  if !s.dev.standbyOn then s
  else if s.dev.mainOn || standbyDie src then (s.dieReading src temp).checkThermalHold
  else (s.onPower fun p => { p with dies := Tab.modify {} src (fun w => { w with temp }) p.dies }).checkThermalHold

/-- DIE_TEMPERATURE_READING (R340, R348, R349). -/
def execDieTemperatureReading (die : Die) (temp : Int) (s : State) : Out := commit s (dieTemperatureReading die temp s)

/-- The links of a die that trips are dark at once: PEER_LOST leaves through the others (R349). -/
def State.darken (die : Die) (s : State) : State :=
  match die with
  | .link i => s.each [4 * i.val, 4 * i.val + 1, 4 * i.val + 2, 4 * i.val + 3] fun s n => s.onLink n fun l => { l with state := .dark }
  | _ => s

/-- Every link that the licences enable is dark (R349). -/
def State.lightsOut (s : State) : State := s.each s.enabledLinks fun s n => s.onLink n fun l => { l with state := .dark }

/-- A control die's trip with the main domain off is logged and held alike; there is nothing to switch off, and the state stays (log entry 146). -/
def thermalTrip (die : Die) (s : State) : State :=
  let held := fun (s : State) => (s.onDev fun d => { d with thermalHold := true }).onMgmt fun m => { m with thermTrip := true }
  let s := s.onPower fun p => { p with dies := Tab.modify {} (srcDie die) (fun w => { w with temp := max w.temp 920 }) p.dies }
  if s.dev.mainOn then
    let s := s.darken die
    let s := if s.job.bind.isSome then s.sendLost s.ownCoord else s
    let s := s.note .thermalTrip (srcDie die)
    held ((s.mainOff.lightsOut.onDump fun d => d.kept).enter .standby)
  else if s.dev.standbyOn && standbyDie (srcDie die) then held (s.note .thermalTrip (srcDie die))
  else s

/-- THERMAL_TRIP: a die reaches 115 °C (R348, R349). -/
def execThermalTrip (die : Die) (s : State) : Out := commit s (thermalTrip die s)

def coolantOutlet (temp : Int) (s : State) : State :=
  if s.dev.standbyOn && decide (520 ≤ temp) then s.note .coolantOutlet srcCarrier (temp16 temp) else s

/-- COOLANT_OUTLET: the outlet reaches 65 °C (R27). -/
def execCoolantOutlet (temp : Int) (s : State) : Out := commit s (coolantOutlet temp s)

/-- The event of a level of a stack (R205). -/
def heatEvent : Heat → Event
  | .normal | .warm => .hbmWarm
  | .hot => .hbmHot
  | .critical => .hbmCritical

/-- Channels of a stack as hub channels. -/
def stackChannels (t : Nat) : List Nat := (List.range 31).map fun i => 31 * (t % 3) + i

def stackTemperatureReading (stack : Fin 24) (temp : Int) (s : State) : State :=
  let t := stack.val
  let h := hubOfStack t
  if !s.dev.mainOn then s
  else
    let old := (s.stack t).heat
    let first := !s.anyWarm
    let (w, late) := old.step s.clock.uptime stackLadder temp
    -- a stack that trained before its first reading takes that reading as its baseline (log entry 141)
    let s := s.onStack t fun v => { v with heat := w, trained := (v.trained.1, v.trained.2.or (some temp)) }
    let s := s.each (heatEntered old.level w.level) fun s lvl => s.note (heatEvent lvl) (srcStack t) (temp16 temp)
    let s := s.thermalTerm first late
    let s := if old.level ≠ .critical && w.level = .critical then (s.stopStack t).fail else s
    if s.hbmUp then s.each ((stackChannels t).filter fun k => s.movedSince h k && !(s.stack t).stopped) fun s k => s.makeDue h k else s

/-- STACK_TEMPERATURE_READING (R199, R205, R340). -/
def execStackTemperatureReading (stack : Fin 24) (temp : Int) (s : State) : Out :=
  commit s (stackTemperatureReading stack temp s)

end Sys2Proof.Machine
end

