-- ==== Sys2Proof/Machine/Host.lean ====
section
/-! DEFINITION. The Cofin link (R383, R385), writes of the host window (R384, R386 to R393, R397), fetching (R393, R394), completion
interrupts (R395), timeouts (R372), the running dump (R375 to R380), resets in progress (R370, R371) and coalesced events (R356). -/
namespace Sys2Proof.Machine

/-! ## Cofin link -/

def cofinTrainingTimer (s : State) : State :=
  match s.cofin.trying with
  | some .gen3 => s.onCofin fun c => { c with trying := some .gen2 }
  | some .gen2 => s.onCofin fun c => { c with trying := some .gen3 }
  | none => s

/-- COFIN_TRAINING_TIMER: 50 ms of one generation have passed (R383). -/
def execCofinTrainingTimer (s : State) : Out := commit s (cofinTrainingTimer s)

/-- Interrupts that waited for the link (R385). -/
def State.sendDue (s : State) : State :=
  let due := s.cofin.irqDue
  (s.onCofin fun c => { c with irqDue := [] }).each due fun s i => s.emit (.interrupt i.1 i.2)

def cofinUp (gen : CofinGen) (s : State) : State :=
  if s.cofin.trying = some gen then
    let s := s.onCofin fun c => { c with up := true, gen := if gen = .gen3 then 3 else 2, trying := none }
    let s :=
      if gen = .gen2 && !s.cofin.gen2Logged then
        (s.onCofin fun c => { c with gen2Logged := true }).note .cofinGen2 srcControl
      else s
    ((s.note .cofinUp srcControl).each (List.range 7) fun s m => s.flushHeld m).sendDue
  else s

/-- COFIN_UP (R383, R385). -/
def execCofinUp (gen : CofinGen) (s : State) : Out := commit s (cofinUp gen s)

def cofinDown (s : State) : State :=
  if s.cofin.up then
    (s.onCofin fun c => { c with up := false, trying := some .gen3 }).note .cofinDown srcControl
  else s

/-- COFIN_DOWN (R385). -/
def execCofinDown (s : State) : Out := commit s (cofinDown s)

/-! ## Mailbox registers (R392, R393, R397) -/

/-- The largest ring size of a protocol version (R400). -/
def Mailbox.maxLog2 (b : Mailbox) : Nat := if b.version = 2 then 10 else 12

def Mailbox.badSizes (b : Mailbox) : Bool :=
  decide (b.cmdLog2.toNat < 4) || decide (b.maxLog2 < b.cmdLog2.toNat) || decide (b.cmpLog2.toNat < 4) ||
    decide (b.maxLog2 < b.cmpLog2.toNat)

/-- The ring error an enabled mailbox's registers show; 0 for none (R393). -/
def Mailbox.errorNow (b : Mailbox) : Nat :=
  if !b.enable || b.ringError then 0
  else if b.badSizes then 1
  else if 2 ^ b.cmdLog2.toNat < (b.cmdTail - b.cmdHead).toNat then 2
  else if 2 ^ b.cmpLog2.toNat < (b.cmpTail - b.cmpHead).toNat then 3
  else 0

/-- Take a ring error if the registers show one. -/
def State.checkRing (m : Nat) (s : State) : State :=
  let e := (s.mbox m).errorNow
  if e = 0 then s else s.ringError m e

/-- A write of CMD_TAIL. -/
def State.ringDoorbell (m : Nat) (tail : Word) (s : State) : State :=
  (s.onMbox m fun b => { b with cmdTail := tail }).checkRing m

/-- A write of CMP_HEAD: cause 3 when it passes CMP_TAIL or leaves too many entries (R393). -/
def State.writeCmpHead (m : Nat) (head : Word) (s : State) : State :=
  let s := s.onMbox m fun b => { b with cmpHead := head }
  let b := s.mbox m
  if b.enable && !b.ringError && decide (2 ^ b.cmpLog2.toNat < (b.cmpTail - b.cmpHead).toNat) then s.ringError m 3 else s

/-- A write of ENABLE and IRQ_EN. -/
def State.writeEnable (m : Nat) (enable irqEn : Bool) (s : State) : State :=
  (s.onMbox m fun b => { b with enable, irqEn }).checkRing m

/-- A write of 1 to RESET (R397). -/
def Mailbox.afterReset (b : Mailbox) : Mailbox :=
  { b with
    enable := false, ringError := false, errorCause := 0, cmdTail := 0, cmdHead := 0, cmpTail := 0, cmpHead := 0
    completed := 0, inFlight := [], dropped := b.dropped ++ b.inFlight, heldOut := [], unsignalled := 0 }

/-- The high or the low half of a 64-bit register. -/
def half (hi : Bool) (old : BitVec 64) (v : Word) : BitVec 64 :=
  if hi then BitVec.ofNat 64 (old.toNat % 2 ^ 32 + v.toNat * 2 ^ 32)
  else BitVec.ofNat 64 (old.toNat / 2 ^ 32 * 2 ^ 32 + v.toNat)

/-- Registers that may be written only while ENABLE is 0 (R392). VERSION takes only 2 and 3. -/
def Mailbox.writeFixed (b : Mailbox) (r : Nat) (v : Word) : Mailbox :=
  if b.enable then b
  else if r = 0x00 || r = 0x04 then { b with cmdBase := half (r = 0x04) b.cmdBase v }
  else if r = 0x08 || r = 0x0C then { b with cmpBase := half (r = 0x0C) b.cmpBase v }
  else if r = 0x10 || r = 0x14 then { b with cmpShadow := half (r = 0x14) b.cmpShadow v }
  else
    let ver := natBits v.toNat 11 8
    { b with
      cmdLog2 := BitVec.ofNat 4 (natBits v.toNat 3 0), cmpLog2 := BitVec.ofNat 4 (natBits v.toNat 7 4)
      version := if ver = 2 || ver = 3 then BitVec.ofNat 4 ver else b.version }

/-- A 4-byte write of register `r` of mailbox `m`. -/
def State.writeMailbox (m r : Nat) (v : Word) (s : State) : State :=
  if r ≤ 0x18 then s.onMbox m fun b => b.writeFixed r v
  else if r = 0x1C then
    (if v.getLsbD 2 then s.onMbox m fun b => { b.afterReset with irqEn := v.getLsbD 1 }
     else s.writeEnable m (v.getLsbD 0) (v.getLsbD 1))
  else if r = 0x20 then s.ringDoorbell m v
  else if r = 0x2C then s.writeCmpHead m v
  else if r = 0x30 || r = 0x34 then s.onMbox m fun b => { b with irqAddr := half (r = 0x34) b.irqAddr v }
  else if r = 0x38 then s.onMbox m fun b => { b with irqData := v }
  else if r = 0x3C then
    s.onMbox m fun b => { b with irqCount := BitVec.ofNat 8 v.toNat, irqDelayUs := BitVec.ofNat 16 (v.toNat / 2 ^ 16) }
  else s

/-! ## The host window -/

/-- Clear bits of EVENT_PENDING, given as the register's word (R388). -/
def State.clearPending (mask : Word) (s : State) : State :=
  s.onRegs fun r => { r with eventPending := r.eventPending &&& ~~~(BitVec.ofNat 8 (mask.toNat / 2)) }

/-- A 4-byte write of the device state block (R388): only the event registers are writable. -/
def State.writeState (r : Nat) (v : Word) (s : State) : State :=
  if r = 0x10 then s.clearPending v
  else
    s.onRegs fun g =>
      if r = 0x14 then { g with eventIrqEn := BitVec.ofNat 8 (v.toNat / 2) }
      else if r = 0x20 || r = 0x24 then { g with eventIrqAddr := half (r = 0x24) g.eventIrqAddr v }
      else if r = 0x28 then { g with eventIrqData := v }
      else g

/-- The writable bits of the step parameter page's word at `r` (R167, R12). -/
def pageMask (r : Nat) : Nat :=
  if r = 0x04 then 2 ^ 26 - 1 else if 0x34 ≤ r && r < 0x40 || 0xE0 ≤ r then 0 else 2 ^ 32 - 1

/-- A 4-byte write at an offset of the host window (R386); every other place is read-only or reserved. -/
def State.writeWord (off : Nat) (v : Word) (s : State) : State :=
  if 0x100 ≤ off && off < 0x200 then s.writeState (off - 0x100) v
  else if 0x200 ≤ off && off < 0x2E0 then
    s.onRegs fun g =>
      let m := pageMask (off - 0x200)
      if m = 0 then g else { g with page := Tab.setRun 0 (off - 0x200) (leBytes 4 (v.toNat &&& m)) g.page }
  else if 0x1000 ≤ off && off < 0x1700 then s.writeMailbox ((off - 0x1000) / 0x100) (off % 0x100) v
  else s

/-- The host can reach the window: the link is up and the control dies run. -/
def State.windowOpen (s : State) : Bool := s.cofin.up && s.dev.standbyOn

def registerWrite (offset size : Nat) (value : BitVec 64) (s : State) : State :=
  if s.windowOpen && (size = 4 || size = 8) && offset % size = 0 then
    let s := s.writeWord offset (BitVec.ofNat 32 value.toNat)
    if size = 8 then s.writeWord (offset + 4) (BitVec.ofNat 32 (value.toNat / 2 ^ 32)) else s
  else s

/-- REGISTER_WRITE (R384, R386): 4 or 8 bytes, naturally aligned; any other write is ignored. -/
def execRegisterWrite (offset size : Nat) (value : BitVec 64) (s : State) : Out :=
  commit s (registerWrite offset size value s)

/-- A write of a mailbox register through the window. -/
def State.hostRing (s : State) (f : State → State) : State := if s.windowOpen then f s else s

/-- DOORBELL: CMD_TAIL written (R393). -/
def execDoorbell (m : Fin 7) (tail : Word) (s : State) : Out := commit s (s.hostRing (State.ringDoorbell m.val tail))

/-- CMP_HEAD_WRITE (R393). -/
def execCmpHeadWrite (m : Fin 7) (head : Word) (s : State) : Out := commit s (s.hostRing (State.writeCmpHead m.val head))

/-- MAILBOX_ENABLE: ENABLE set (R392, R393). -/
def execMailboxEnable (m : Fin 7) (irqEn : Bool) (s : State) : Out :=
  commit s (s.hostRing (State.writeEnable m.val true irqEn))

/-- MAILBOX_RESET (R397). -/
def execMailboxReset (m : Fin 7) (s : State) : Out :=
  commit s (s.hostRing (State.onMbox m.val Mailbox.afterReset))

/-- EVENT_PENDING_CLEAR (R388): the register's word with 1 in the bits to clear. -/
def execEventPendingClear (mask : Word) (s : State) : Out := commit s (s.hostRing (State.clearPending mask))

/-! ## Fetching and interrupts -/

def commandFetch (m : Fin 7) (d : Descriptor) (readOk : Bool) (s : State) : State :=
  if s.fetchable m.val d.cmd.flags then
    if readOk then
      let op := d.opcode.toNat
      let t := s.fetch m.val op d.cmd
      match t.checkFetched m.val op d.cmd with
      | some status => t.complete m.val d.cmd.tag status
      | none => t
    else (s.note .hostDmaError srcControl).ringError m.val 4
  else s

/-- COMMAND_FETCH (R393, R394). -/
def execCommandFetch (m : Fin 7) (d : Descriptor) (readOk : Bool) (s : State) : Out :=
  commit s (commandFetch m d readOk s)

def completionIrqDelay (m : Fin 7) (s : State) : State :=
  let b := s.mbox m.val
  if b.irqEn && decide (0 < b.unsignalled) && b.irqDelayUs ≠ 0 then
    (s.onMbox m.val fun b => { b with unsignalled := 0 }).interrupt b.irqAddr b.irqData
  else s

/-- COMPLETION_IRQ_DELAY: IRQ_DELAY_US has passed (R395). -/
def execCompletionIrqDelay (m : Fin 7) (s : State) : Out := commit s (completionIrqDelay m s)

/-! ## Timeouts -/

def commandTimeout (m : Fin 7) (tag : Word) (s : State) : State :=
  let b := s.mbox m.val
  match (b.dropped ++ b.inFlight).find? fun f => f.tag = tag with
  | none => s
  | some f =>
    let s := (s.advanceTo f.deadline).complete m.val tag 0x0701
    let s := s.note .commandTimeout srcControl (f.opcode.toNat + tag.toNat * 2 ^ 32)
    if usesPartition f.opcode.toNat then s.hangRecovery else s

/-- COMMAND_TIMEOUT (R372, R373). -/
def execCommandTimeout (m : Fin 7) (tag : Word) (s : State) : Out := commit s (commandTimeout m tag s)

/-! ## The crash dump -/

def dumpUnitUnreachable (unit : BitVec 12) (s : State) : State :=
  s.onDump fun d =>
    { d with running := d.running.map fun r =>
        { r with
          unreachable := if r.unreachable.contains unit then r.unreachable else r.unreachable ++ [unit]
          summaryOnly := r.summaryOnly || (d.region.any fun h => srcHub h = unit.toNat) } }

/-- DUMP_UNIT_UNREACHABLE (R375). -/
def execDumpUnitUnreachable (unit : BitVec 12) (s : State) : Out := commit s (dumpUnitUnreachable unit s)

/-- DUMP_DONE (R375). -/
def execDumpDone (s : State) : Out := commit s (s.endDump false)

def dumpHoldTimeout (s : State) : State := if s.dump.moduleHold.isSome then s.endHold false else s

/-- DUMP_HOLD_TIMEOUT: 10 min in DUMPING during a module reset (R377). -/
def execDumpHoldTimeout (s : State) : Out := commit s (dumpHoldTimeout s)

def dumpingResetHoldExpiry (s : State) : State :=
  if s.dump.pendingResets.isEmpty then s else s.endDump true

/-- DUMPING_RESET_HOLD_EXPIRY: a held reset request has waited 100 ms (R380). -/
def execDumpingResetHoldExpiry (s : State) : Out := commit s (dumpingResetHoldExpiry s)

/-! ## Resets in progress -/

def coreResetTimeout (core : Fin 128) (s : State) : State :=
  match s.dev.resets.find? fun r => r.level = .core && r.target = core.val with
  | some r => (s.advanceTo (r.due + 8000)).hangRecovery
  | none => s

/-- CORE_RESET_TIMEOUT: a core reset has not completed within 10 µs (R371). -/
def execCoreResetTimeout (core : Fin 128) (s : State) : Out := commit s (coreResetTimeout core s)

/-- The reset that completes first. -/
def Device.firstReset (d : Device) : Option ResetRun :=
  d.resets.foldl
    (fun (a : Option ResetRun) r =>
      match a with
      | none => some r
      | some b => if r.due < b.due then some r else a) none

def resetComplete (s : State) : State :=
  match s.dev.firstReset with
  | none => s
  | some r =>
    let s := (if r.level = .core then s else s.advanceTo r.due).endReset r
    if r.level = .partition && s.dump.hang then s.hangEnd else s

/-- RESET_COMPLETE (R370, R373, R374): a core reset takes at most 2 µs, so it completes when the row comes; the others take their time. -/
def execResetComplete (s : State) : Out := commit s (resetComplete s)

/-! ## Coalesced events -/

def eventsCoalesced (s : State) : State :=
  if s.log.bursts.any fun b => decide (4 < b.seen) then
    let last := s.log.bursts.foldl (fun a b => max a b.ms) 0
    let s := s.advanceTo ((last + 1) * 1000000)
    s.flushBursts s.ms
  else s

/-- EVENTS_COALESCED: the uptime millisecond ends (R356). -/
def execEventsCoalesced (s : State) : Out := commit s (eventsCoalesced s)

end Sys2Proof.Machine
end

