-- ==== Sys2Proof/Machine/Admin.lean ====
section
/-! DEFINITION. Mailbox 0, administration (R402): status and resets, the log and the dump, fault policies, firmware and
configuration (R416 to R419), the meridian counter (R30), standby and wake, cancellation (R398). -/
namespace Sys2Proof.Machine

def status (c : Cmd) (s : State) : State :=
  s.command 0 0x0001 c false fun s => s.finishWith 0 c (s.identityBlock ++ s.stateBlock)

/-- STATUS (R402). -/
def execStatus (c : Cmd) (s : State) : Out := commit s (status c s)

/-- The unit and the level a RESET names; none where it is out of range (R370). -/
def State.resetTarget (s : State) (level target : Nat) : Option (ResetLevel × Nat) :=
  if level = 0 then (if target < s.coreMap.length then some (.core, s.phys target) else none)
  else if level = 1 then (if target < 32 then some (.cluster, target) else none)
  else if level = 2 then some (.partition, 0)
  else if level = 3 then some (.module, 0)
  else none

/-- RESET's work: the command completes before its reset is taken. -/
def State.hostReset (c : Cmd) (target : BitVec 16) (s : State) : State :=
  match s.resetTarget c.mboxByte.toNat target.toNat with
  | none => s.finish 0 c 0x011C
  | some (l, t) => (s.finish 0 c 0).requestReset l t causeHost

def reset (c : Cmd) (target : BitVec 16) (s : State) : State :=
  s.command 0 0x0002 c false (State.hostReset c target)

/-- RESET (R370, R402). -/
def execReset (c : Cmd) (target : BitVec 16) (s : State) : Out := commit s (reset c target s)

/-- The 32 bytes of a log entry (R354). -/
def Entry.bytes (e : Entry) : Bytes :=
  leBytes 4 e.event.toNat ++ leBytes 4 e.seq.toNat ++ leBytes 8 e.uptime.toNat ++ leBytes 8 e.meridian.toNat ++
    leBytes 8 e.detail.toNat

/-- Held entries from a SEQ on, oldest first. -/
def EventLog.from_ (l : EventLog) (seq : Word) : List Entry := (l.first ++ l.ring).filter fun e => decide (seq ≤ e.seq)

def logFetch (c : Cmd) (firstSeq : Word) (s : State) : State :=
  s.command 0 0x0003 c false fun s =>
    let entries := (s.log.from_ firstSeq).take (c.length.toNat / 32)
    s.complete 0 c.tag 0 entries.length c.buffer (entries.flatMap Entry.bytes)

/-- LOG_FETCH (R355, R402). -/
def execLogFetch (c : Cmd) (firstSeq : Word) (s : State) : Out := commit s (logFetch c firstSeq s)

def logClear (c : Cmd) (s : State) : State :=
  s.command 0 0x0004 c false fun s => (s.onLog fun l => { l with first := [], ring := [] }).finish 0 c 0

/-- LOG_CLEAR (R355, R380). -/
def execLogClear (c : Cmd) (s : State) : Out := commit s (logClear c s)

/-- Bytes a dump can have: the 256 MiB region, or 1 MiB of summary (R375). -/
def dumpSize (summary : Bool) : Nat := if summary then 2 ^ 20 else 2 ^ 28

/-- The records of a dump in R376's order: source unit and length. -/
def DumpRec.records (r : DumpRec) (summary : Bool) : List (Nat × Nat) :=
  let n := fun (full short : Nat) => if summary then short else full
  (List.range 128).map (fun p => (srcCore p, n (64 * 1024) 2048)) ++ (List.range 8).map (fun h => (srcHub h, n (2 ^ 20) (32 * 1024))) ++
    (List.range 6).map (fun d => (srcLinkDie d, n (2 ^ 20) (32 * 1024))) ++ [(srcControl, n (2 ^ 21) (96 * 1024))] ++
    if summary then [] else r.tiles.map fun p => (srcCore p, 6 * 2 ^ 20)

/-- A directory entry's status (R376): an unreachable unit; a record that the capture, at 16 bytes a ns, had not finished when it was cut short
(R380); one with a marked word. -/
def DumpRec.status (r : DumpRec) (unit end_ : Nat) : Nat :=
  if r.unreachable.any fun u => u.toNat = unit then 1
  else if r.partial_ && decide (16 * (r.ended - r.uptime) < end_) then 2
  else if Config.dumpMarked r.seq.toNat unit then 3 else 0

def DumpTrigger.code : DumpTrigger → Nat
  | .hang => 0
  | .faulted => 1
  | .command => 2

/-- The 4 KiB header of a dump (R376): its fields in the rule's order, in 4 bytes each and the two times in 8; a directory entry is 16 bytes. Widths and
places are the model's choice (log entry 143). -/
def DumpRec.header (r : DumpRec) (summary : Bool) : Bytes :=
  let w := leBytes 4
  let fixed := w 0x504D5544 ++ w 1 ++ w r.seq.toNat ++ w r.trigger.code ++ leBytes 8 r.uptime ++ leBytes 8 r.meridian ++ w r.state.code ++
    w r.jobTag.toNat ++ w r.step.toNat ++ w r.epoch
  let entry := fun (a : Nat × Bytes) (e : Nat × Nat) =>
    (a.1 + e.2, a.2 ++ w e.1 ++ w a.1 ++ w e.2 ++ w (r.status e.1 (a.1 + e.2)))
  let all := fixed ++ ((r.records summary).foldl entry (4096, [])).2
  all ++ List.replicate (4096 - all.length) 0

/-- A byte of a dump: its header, then its records, whose layout the manual does not give. -/
def DumpRec.byteAt (r : DumpRec) (summary : Bool) (header : Bytes) (i : Nat) : Byte :=
  if i < 4096 then header.getD i 0 else Config.dumpByte r.seq.toNat (i + if summary then 2 ^ 28 else 0)

/-- DUMP_FETCH's work; a full fetch of a dump that has only its summary finds none (R377). -/
def State.fetchDump (c : Cmd) (offset : BitVec 64) (s : State) : State :=
  let summary := c.mboxByte.toNat = 1
  if 1 < c.mboxByte.toNat || dumpSize summary < offset.toNat + c.length.toNat then s.finish 0 c 0x011C
  else
    match s.dump.held with
    | none => s.finish 0 c 0x0210
    | some r =>
      if !summary && r.summaryOnly then s.finish 0 c 0x0210
      else
        let header := r.header summary
        let data := (List.range c.length.toNat).map fun i => r.byteAt summary header (offset.toNat + i)
        ((s.complete 0 c.tag 0 0 c.buffer data).onDump fun d => { d with fetched := true }).endHold false

def dumpFetch (c : Cmd) (offset : BitVec 64) (s : State) : State :=
  s.command 0 0x0005 c false (State.fetchDump c offset)

/-- DUMP_FETCH (R377). -/
def execDumpFetch (c : Cmd) (offset : BitVec 64) (s : State) : Out := commit s (dumpFetch c offset s)

def dumpDiscard (c : Cmd) (s : State) : State :=
  s.command 0 0x0006 c false fun s =>
    if s.dump.held.isNone then s.finish 0 c 0x0210 else (s.finish 0 c 0).endHold true

/-- DUMP_DISCARD (R377). -/
def execDumpDiscard (c : Cmd) (s : State) : Out := commit s (dumpDiscard c s)

/-- Settings after one more: a setting for every source erases the others of its code (R368). -/
def FaultWindows.set (code source w n : Nat) (f : FaultWindows) : FaultWindows :=
  let p : Policy := { code := BitVec.ofNat 12 code, source := BitVec.ofNat 12 source, window := w, threshold := n }
  let kept := f.policies.filter fun q => q.code ≠ p.code || (source ≠ 0xFFF && q.source ≠ p.source)
  { f with policies := kept ++ [p] }

def faultPolicy (c : Cmd) (code source : BitVec 16) (w : Word) (n : Byte) (s : State) : State :=
  s.command 0 0x0007 c false fun s =>
    if w = 0 || 86400 < w.toNat || n = 0 || 4096 ≤ code.toNat || 4096 ≤ source.toNat then s.finish 0 c 0x0119
    else (s.onFaults (FaultWindows.set code.toNat source.toNat w.toNat n.toNat)).finish 0 c 0

/-- FAULT_POLICY (R368). -/
def execFaultPolicy (c : Cmd) (code source : BitVec 16) (w : Word) (n : Byte) (s : State) : Out :=
  commit s (faultPolicy c code source w n s)

/-! ## Firmware -/

/-- The first check a firmware image fails, 1 to 6; 0 when it passes all (R416). -/
def State.imageCheck (s : State) (image : Bytes) : Nat :=
  let len := field image 20 4
  if image.length < 256 || 256 + len ≠ image.length || 2 ^ 24 < image.length then 1
  else if field image 0 4 ≠ 0x57463454 || field image 4 2 ≠ 1 then 2
  else if s.fuses.romVersion.toNat < field image 16 4 then 3
  else if field image 12 4 < s.fuses.svnMin.toNat then 4
  else if !verifyRecord s.fuses.firmwareKey image 64 64 then 5
  else if sha256 (image.drop 256) ≠ (image.drop 32).take 32 then 6
  else 0

/-- What the header gives the running firmware. -/
def parseImage (image : Bytes) : Firmware :=
  { version := BitVec.ofNat 32 (field image 8 4), svn := BitVec.ofNat 32 (field image 12 4)
    numrev := BitVec.ofNat 8 (field image 24 1), hetchLevels := BitVec.ofNat 8 (field image 25 1)
    fabricMin := BitVec.ofNat 8 (field image 26 1), fabricMax := BitVec.ofNat 8 (field image 27 1)
    mboxVersions := BitVec.ofNat 8 (field image 28 1), measurement := sha256 image }

/-- HELD_CAUSE, which an overvoltage keeps at 5 until it recovers (R432). -/
def State.heldCause (cause : Nat) (s : State) : State :=
  if s.dev.overvolt then s else s.onDev fun d => { d with heldCause := BitVec.ofNat 8 cause }

/-- FW_LOAD's work. -/
def State.loadFirmware (c : Cmd) (image : Bytes) (s : State) : State :=
  if s.dev.state ≠ .held || s.dev.firmware then s.finish 0 c 0x0201
  else
    let bad := s.imageCheck image
    if bad ≠ 0 then ((s.note .fwAuthFail srcControl bad).heldCause 2).finish 0 c 0x0504 bad
    else
      let s := s.onDev fun d => { d with firmware := true, fw := parseImage image }
      let s := s.onMgmt fun m => { m with jtag := if m.jtag = 3 then 0 else m.jtag }
      (s.heldCause 3).finish 0 c 0

def fwLoad (c : Cmd) (image : Bytes) (s : State) : State :=
  s.command 0 0x0008 c true (State.loadFirmware c image)

/-- FW_LOAD (R416). -/
def execFwLoad (c : Cmd) (image : Bytes) (s : State) : Out := commit s (fwLoad c image s)

/-! ## Configuration -/

/-- The defect map of a record (R419). -/
def parseDefect (record : Bytes) (p : Nat) : Defect :=
  let o := 64 + 16 * p
  let row := fun a => field record (o + 8 + 2 * a) 1
  let col := fun a => field record (o + 9 + 2 * a) 1
  { exclude := natBit (field record o 1) 0
    rows := [0, 1, 2, 3].map fun a => if natBit (row a) 7 then some (row a % 128) else none
    cols := [0, 1, 2, 3].map fun a => if natBit (col a) 7 then some (col a % 64) else none }

/-- An entry that R419 refuses. -/
def State.badDefect (s : State) (p : Nat) (d : Defect) : Bool :=
  !s.fuses.disabled.contains p && [0, 1, 2, 3].any fun a =>
    let r := (s.fusedArray (4 * p + a)).toNat
    ((d.rows.getD a none).any fun v => 64 < v || (natBits r 6 0 ≠ 64 && natBits r 6 0 ≠ v)) ||
      ((d.cols.getD a none).any fun v => 33 < v || (natBits r 13 8 ≠ 33 && natBits r 13 8 ≠ v))

/-- Cores usable by fuses and a defect map alone. -/
def State.usableCount (s : State) (defects : List Defect) : Nat :=
  ((List.range 128).filter fun p =>
    !s.fuses.disabled.contains p && !(defects.getD p {}).exclude &&
      [0, 1, 2, 3].all fun a => !(s.fusedArray (4 * p + a)).getLsbD 15).length

/-- The status of the first check a record fails (R418). -/
def State.recordCheck (s : State) (record : Bytes) : Option Nat :=
  let ports := natBit (field record 5 1) 0
  let defects := (List.range 128).map (parseDefect record)
  if field record 8 4 ≠ record.length || record.length ≠ (if ports then 3536 else 2112) ||
      field record 0 4 ≠ 0x46435154 || field record 4 1 ≠ 1 then some 0x011D
  else if sha256 (record.drop 64) ≠ (record.drop 16).take 32 then some 0x0405
  else if defects.zipIdx.any fun e => s.badDefect e.2 e.1 then some 0x011D
  else if s.usableCount defects < 120 then some 0x011D
  else if ports && badPortMap (record.drop 2112) then some 0x0112
  else if ports && s.badSheet (parseSheet (record.drop 2320)) then some 0x0115
  else none

/-- A record as the module holds it. -/
def parseConfig (record : Bytes) : ConfigRecord :=
  { bytes := record, configId := BitVec.ofNat 32 (field record 12 4), ports := natBit (field record 5 1) 0
    defects := ((List.range 128).map fun p => (p, parseDefect record p)).filter fun e => decide (e.2 ≠ {}) }

/-- CONFIG_LOAD's work. -/
def State.loadConfig (c : Cmd) (record : Bytes) (s : State) : State :=
  if s.dev.state ≠ .held && s.dev.state ≠ .ready then s.finish 0 c 0x0201
  else if s.dev.state = .held && s.dev.thermalHold then s.finish 0 c 0x020F
  else
    match s.recordCheck record with
    | some status => (s.note .configRefused srcControl status).finish 0 c status
    | none =>
      let r := parseConfig record
      let s := (s.onDev fun d => { d with config := some r }).finish 0 c 0
      if s.dev.state = .ready then (if r.ports then s.applyPorts (record.drop 2112) true else s) else s.endHeld

def configLoad (c : Cmd) (record : Bytes) (s : State) : State :=
  s.command 0 0x0009 c true (State.loadConfig c record)

/-- CONFIG_LOAD (R417 to R419). -/
def execConfigLoad (c : Cmd) (record : Bytes) (s : State) : Out := commit s (configLoad c record s)

/-! ## The meridian counter -/

def meridianSet (c : Cmd) (value : BitVec 64) (s : State) : State :=
  s.command 0 0x000A c false fun s =>
    if s.dev.firmware && (s.dev.state = .held || s.dev.state = .initialising) then
      (s.onMer fun m => { m with stored := some (value.toNat, s.clock.uptime) }).finish 0 c 0
    else s.finish 0 c 0x0201

/-- MERIDIAN_SET (R30, R402). -/
def execMeridianSet (c : Cmd) (value : BitVec 64) (s : State) : Out := commit s (meridianSet c value s)

def meridianSlew (c : Cmd) (rate durationMs : Word) (s : State) : State :=
  s.command 0 0x000B c false fun s =>
    if !s.mer.root then s.finish 0 c 0x0201
    else if 10000 < rate.toInt.natAbs then s.finish 0 c 0x011C
    else
      (s.onMer fun m => { m with slew := some (rate.toInt, s.clock.uptime, durationMs.toNat) }).finish 0 c 0

/-- MERIDIAN_SLEW (R29, R35, R402). -/
def execMeridianSlew (c : Cmd) (rate durationMs : Word) (s : State) : Out := commit s (meridianSlew c rate durationMs s)

/-! ## Standby, wake, cancel -/

/-- A dump is held that nothing has fetched (R412). -/
def Dump.holds (d : Dump) : Bool := d.held.isSome && !d.fetched

def standby (c : Cmd) (s : State) : State :=
  s.command 0 0x000C c false fun s =>
    if s.job.bind.isSome || s.dump.holds || !(s.dev.state = .ready || s.dev.state = .faulted) then s.finish 0 c 0x0201
    else ((s.finish 0 c 0).mainOff.onDump Dump.kept).enter .standby

/-- STANDBY (R390, R402). -/
def execStandby (c : Cmd) (s : State) : Out := commit s (standby c s)

def wake (c : Cmd) (s : State) : State :=
  s.command 0 0x000D c false fun s =>
    if s.dev.state ≠ .standby || s.dump.holds || s.dev.config.isNone then s.finish 0 c 0x0201
    else if s.dev.thermalHold then s.finish 0 c 0x020F
    else
      let s := s.finish 0 c 0
      (s.onDev fun d => { d with startStep := 5, stepEnds := d.stepEnds.take 4, surveyEnd := none }).enter .initialising

/-- WAKE (R390, R402). -/
def execWake (c : Cmd) (s : State) : Out := commit s (wake c s)

/-- CANCEL's work on mailbox `m`: the oldest command in flight with the tag, which on mailbox 0 may be the CANCEL itself (R398). -/
def State.cancelOn (m : Nat) (tag : Word) (c : Cmd) (s : State) : State :=
  match (s.mbox m).inFlight.find? fun f => f.tag = tag with
  | none => s.finish 0 c 0x011C
  | some f =>
    let waits := s.sec.waiting.any fun w => m = 4 && w.cmd.tag = tag
    let unbegun := s.job.dispatches.any fun d => m = 1 && f.opcode.toNat = 0x0105 && d.tag = tag && !d.begun
    if !f.begun || waits || unbegun then
      let s := s.onSec fun v => { v with waiting := v.waiting.filter fun w => !(m = 4 && w.cmd.tag = tag) }
      let s := s.onJob fun j =>
        { j with dispatches := if unbegun then dropFirst (fun d => d.tag = tag && !d.begun) j.dispatches else j.dispatches }
      (s.complete m tag 0x0703).finish 0 c 0
    else s.finish 0 c 0x0201

def cancel (c : Cmd) (tag : Word) (s : State) : State :=
  s.command 0 0x000E c false fun s =>
    if 6 < c.mboxByte.toNat then s.finish 0 c 0x011C else s.cancelOn c.mboxByte.toNat tag c

/-- CANCEL (R398). -/
def execCancel (c : Cmd) (tag : Word) (s : State) : Out := commit s (cancel c tag s)

end Sys2Proof.Machine
end

