-- ==== Sys2Proof/Machine/FieldTest.lean ====
section
/-! DEFINITION. Field tests (R72, R345, R364, R365, R369) and the FIELD_TEST command (R409). -/
namespace Sys2Proof.Machine

/-- Logical core `n` is assigned and not retired. -/
def State.testable (s : State) (n : Nat) : Bool := n < s.coreMap.length && !(s.core (s.phys n)).retired

/-- Another core's test runs: tests run one core at a time (R364). -/
def State.testing (s : State) (p : Nat) : Bool := s.cores.any fun e => e.2.test.state == .running && (e.1 ≠ p || e.2.scoreboard)

/-- The core is in token mode and has no macro-op in flight and no strand with work (R72). -/
def Core.free (c : Core) : Bool := !c.scoreboard && c.flights.isEmpty && (c.strands.all fun e => !e.2.work) && !c.inReset

/-- The frame in progress gives core `p` work (R62, R364). -/
def State.frameWork (s : State) (p : Nat) : Bool := s.job.bind.isSome && (s.core p).worked

/-- A segment of core `n`'s test may start now: READY, or a job is bound and the frame gives the core no work. -/
def State.testOpen (s : State) (n : Nat) : Bool :=
  s.testable n && !s.testing (s.phys n) &&
    (s.dev.state == .ready || s.dev.state == .running || s.dev.state == .draining) && (s.core (s.phys n)).free && !s.frameWork (s.phys n)

/-- The next core of the rotation at or after `n`, retired cores left out. -/
def State.nextTest (s : State) (n : Nat) : Option Nat :=
  ((List.range 120).map fun i => (n + i) % 120).find? s.testable

/-- The switch into scoreboard mode (R72) and the start of the test, or of what is left of it after a frame with work (R364). -/
def State.startTest (n : Nat) (s : State) : State :=
  let now := s.clock.uptime
  let s := s.onCore (s.phys n) fun c =>
    { c with
      saved := some (c.queues, c.strands), scoreboard := true, queues := [], strands := []
      test := { c.test with state := .running, started := if c.test.state = .running then c.test.started else now } }
  s.onPower fun p => { p with testSpent := true }

/-- The switch back to token mode (R72). -/
def Core.leaveTest (c : Core) : Core :=
  match c.saved with
  | some (q, st) => { c with queues := q, strands := st, saved := none, scoreboard := false }
  | none => { c with scoreboard := false }

def fieldTestStart (core : Fin 120) (s : State) : State :=
  let n := core.val
  if !s.testOpen n then s
  else if (s.core (s.phys n)).test.forced then s.startTest n
  else if s.job.bind.isNone || (s.power.cleared.contains 4 && !s.power.testSpent) then
    if (s.core (s.phys n)).test.state = .running then s.startTest n
    else if s.nextTest s.integ.testTurn = some n then (s.startTest n).onInteg fun v => { v with testTurn := (n + 1) % 120 }
    else s
  else s

/-- FIELD_TEST_START (R344, R364). -/
def execFieldTestStart (core : Fin 120) (s : State) : Out := commit s (fieldTestStart core s)

/-- Seconds since the last passing test of a core started, as the uptime at which they are over. -/
def State.testDue (s : State) (n seconds : Nat) : Nat := (s.core (s.phys n)).test.lastPass + seconds * 1000000000

def fieldTestDue (core : Fin 120) (s : State) : State :=
  let n := core.val
  let t := (s.core (s.phys n)).test
  if s.testable n && s.dev.mainOn && !t.forced && !(s.core (s.phys n)).scoreboard then
    (s.advanceTo (s.testDue n 31)).onCore (s.phys n) fun c => { c with test := { c.test with forced := true } }
  else s

/-- FIELD_TEST_DUE (R345). -/
def execFieldTestDue (core : Fin 120) (s : State) : Out := commit s (fieldTestDue core s)

def fieldTestLate (core : Fin 120) (s : State) : State :=
  let n := core.val
  let t := (s.core (s.phys n)).test
  if s.testable n && s.dev.mainOn && !t.late && t.state ≠ .running then
    let s := s.advanceTo (s.testDue n 32)
    (s.note .fieldTestLate (srcCore (s.phys n))).onCore (s.phys n) fun c => { c with test := { c.test with late := true } }
  else s

/-- FIELD_TEST_LATE (R364). -/
def execFieldTestLate (core : Fin 120) (s : State) : Out := commit s (fieldTestLate core s)

/-- DETAIL of FIELD_TEST_FAIL: [7:0] the segment, [15:8] the unit, [23:16] the row, [31:24] the column (log entry 23). -/
def testDetail (r : TestResult) : Nat :=
  bits [(0, r.segment.val), (8, r.unit.toNat), (16, r.row.toNat), (24, r.col.toNat)]

/-- The running attempt gives physical core `p` work: a plan of its step has cuts for a block that runs there. -/
def State.worksInAttempt (s : State) (p : Nat) : Bool :=
  match s.job.attempt with
  | none => false
  | some a =>
    s.job.dispatches.any fun d =>
      d.step == a.step &&
        (match s.planOf d, s.variantOf d with
          | some r, some v => (s.coresOn r).any fun e => e.2.2 = p && v.cuts.any fun c => c.role = r.role && c.block = e.2.1
          | _, _ => false)

/-- The rerun of a core that the running attempt gives work has not passed (R365). -/
def State.rerunAwaited (s : State) : Bool := s.cores.any fun e => e.2.test.rerun && s.worksInAttempt e.1

/-- The steps of the commits since the last passing test of a core started, newest first; a COMMIT that is decided and waits for its tick is one of
them (R365, R380). -/
def State.commitsSince (s : State) (since : Nat) : List Word :=
  let decided := match s.sealSt.decision, s.job.attempt with
    | some (false, _), some a => [a.step]
    | _, _ => []
  decided ++ (s.integ.commits.filter fun c => decide (since < c.1)).map fun c => c.2

/-- Steps 1 to 3 of R365; the count of the fault key waits for the rerun. -/
def State.testFailed (n : Nat) (r : TestResult) (s : State) : State :=
  let p := s.phys n
  let since := (s.core p).test.lastPass
  let s := (s.logCoalesced 4 (srcCore p) 0xF06 (testDetail r)).countStatus 4 0xF06
  let s := if s.worksInAttempt p then s.voteIntegrity else s
  let steps := s.commitsSince since
  let s := match steps.getLast?, steps.head? with
    | some first, some last =>
      (s.onInteg fun v => { v with suspectFirst := first, suspectLast := last }).note .suspectSteps (srcCore p)
        (first.toNat + last.toNat * 2 ^ 32)
    | _, _ => s
  (s.onInteg fun v => { v with failed := satInc v.failed }).onCore p fun c =>
    { c with test := { c.test with fails := satInc c.test.fails } }

/-- Count the fault key of a failed test whose rerun passed, with its lasting action (R365 step 5, R367). -/
def State.countFailed (n : Nat) (s : State) : State :=
  let src := srcCore (s.phys n)
  let (f, lasting) := s.faults.count 0xF06 src 0 s.clock.uptime
  let s := s.onFaults fun _ => f
  if lasting then
    ((s.logRaw 4 src 0xF09 0xF06).onInteg fun i => { i with lasting := satInc i.lasting }).lastingAction .fieldTestFail src 0
  else s

/-- A rerun that fails is lasting (R365 step 5). -/
def State.lastingTest (n : Nat) (s : State) : State :=
  let src := srcCore (s.phys n)
  let s := s.onFaults fun f => { f with counts := f.counts.filter fun c => !(c.code.toNat = 0xF06 && c.source.toNat = src) }
  ((s.logRaw 4 src 0xF09 0xF06).onInteg fun i => { i with lasting := satInc i.lasting }).lastingAction .fieldTestFail src 0

/-- Both cores of a pair passed the trial of R369: the pair is excluded from twin mode. -/
def State.endTrial (p : Nat) (s : State) : State :=
  let pair := p / 2
  let both := [2 * pair, 2 * pair + 1].all fun c => !(s.core c).test.trial && !(s.core c).retired
  if both then
    let s := s.onInteg fun v => { v with twinBarred := if v.twinBarred.contains pair then v.twinBarred else pair :: v.twinBarred }
    (s.onDev fun d => { d with degraded := true }).countTwins
  else s

/-- The commands that wait for core `n`'s test complete. -/
def State.endTestCommands (p status : Nat) (s : State) : State :=
  let tags := (s.core p).test.tags
  (s.onCore p fun c => { c with test := { c.test with tags := [] } }).each tags fun s t => s.complete 6 t status

/-- A test passed. -/
def State.passTest (n : Nat) (s : State) : State :=
  let p := s.phys n
  let t := (s.core p).test
  let s := s.onCore p fun c =>
    { c with test := { c.test with state := .passed, lastPass := c.test.started, late := false, rerun := false, trial := false, forced := false } }
  let s := s.onInteg fun v => { v with passed := satInc v.passed }
  let s := s.endTestCommands p 0
  let s := if t.rerun then s.countFailed n else s
  if t.trial then s.endTrial p else s

/-- A test failed: a rerun or a trial that fails is lasting; else the core is reset and the test runs again. -/
def State.failTest (n : Nat) (r : TestResult) (s : State) : State :=
  let p := s.phys n
  let t := (s.core p).test
  let s := (s.testFailed n r).endTestCommands p 0x0403
  if t.trial then (s.onCore p fun c => { c with test := { c.test with trial := false } }).retire p
  else if t.rerun then s.lastingTest n
  else
    (s.coreReset p causeRerun).onCore p fun c =>
      { c with test := { c.test with state := .failed, rerun := true, forced := true } }

def fieldTestDone (core : Fin 120) (r : TestResult) (s : State) : State :=
  let n := core.val
  let p := s.phys n
  if s.testable n && (s.core p).test.state = .running && (s.core p).scoreboard then
    let s := s.onCore p Core.leaveTest
    if r.passed then s.passTest n else s.failTest n r
  else s

/-- FIELD_TEST_DONE (R365, R367, R369). -/
def execFieldTestDone (core : Fin 120) (r : TestResult) (s : State) : Out := commit s (fieldTestDone core r s)

/-- FIELD_TEST's work: in READY the test runs at once, with a job bound in the core's next frame without work. -/
def State.hostTest (c : Cmd) (n : Nat) (s : State) : State :=
  if !s.testable n then s.finish 6 c 0x011C
  else
    let s := s.onCore (s.phys n) fun v =>
      { v with test := { v.test with tags := v.test.tags ++ [c.tag], forced := v.test.forced || v.test.state ≠ .running } }
    if s.dev.state = .ready && s.testOpen n then s.startTest n else s

def fieldTest (c : Cmd) (core : Byte) (s : State) : State := s.command 6 0x0604 c false (State.hostTest c core.toNat)

/-- FIELD_TEST (R409). -/
def execFieldTest (c : Cmd) (core : Byte) (s : State) : Out := commit s (fieldTest c core s)

end Sys2Proof.Machine
end

