-- ==== Sys2Proof/Machine/Operands.lean ====
section
/-! DEFINITION. Operands: tile descriptors and views (R134 to R136), the packing of elements (R109) and scale planes (R111),
reading, decoding (R112) and writing tiles. -/
namespace Sys2Proof.Machine

/-! ## Operand fields (R136) -/

def opDesc (w : BitVec 64) : Nat := natBits w.toNat 15 0
def opRow (w : BitVec 64) : Nat := natBits w.toNat 27 16
def opCol (w : BitVec 64) : Nat := natBits w.toNat 39 28
def opPlane (w : BitVec 64) : Nat := natBits w.toNat 47 40
def opExt (w : BitVec 64) : Nat := natBits w.toNat 63 48

/-- The field names no operand. -/
def noOperand (w : BitVec 64) : Bool := opDesc w == 0xFFFF

/-- The field with another descriptor index, as MMAS forms its output view. -/
def withDesc (w : BitVec 64) (i : Nat) : BitVec 64 := BitVec.ofNat 64 (w.toNat / 2 ^ 16 % 2 ^ 32 * 2 ^ 16 + i % 2 ^ 16)

/-! ## Layout (R109 to R111, R134) -/

def spTile : Nat := 0
def spSpread : Nat := 1
def spNear : Nat := 2
def spHubc : Nat := 3
def spConst : Nat := 4
def spSheet : Nat := 5

/-- Elements of a block. -/
def TileDesc.blockSize (d : TileDesc) : Nat := 16 * 2 ^ d.block

/-- BASE within its space: the offset part of HUBC and SHEET. -/
def TileDesc.offset (d : TileDesc) : Nat :=
  if d.space = spHubc then d.base % 2 ^ 25 else if d.space = spSheet then d.base % 2 ^ 32 else d.base

/-- The hub field of a HUBC base, the tensor of a SHEET base. -/
def TileDesc.hubField (d : TileDesc) : Nat := natBits d.base 39 32
def TileDesc.tensor (d : TileDesc) : Nat := natBits d.base 47 32

/-- Rows of the scale plane, scales in each, and the bytes SP from one to the next (R111). -/
def TileDesc.scaleRows (d : TileDesc) : Nat :=
  if d.sfmt = 0 then 0 else if d.dir then ceilDiv d.rows d.blockSize else d.rows
def TileDesc.scaleCols (d : TileDesc) : Nat := if d.dir then d.cols else ceilDiv d.cols d.blockSize
def TileDesc.scaleStride (d : TileDesc) : Nat := 64 * ceilDiv d.scaleCols 64

/-- A view: its descriptor, the area its addresses count in, and its offsets. -/
structure View where
  area : Area
  d : TileDesc
  ro : Nat := 0
  co : Nat := 0
  pl : Nat := 0
  deriving DecidableEq, Repr

def View.rows (v : View) : Nat := v.d.rows
def View.cols (v : View) : Nat := v.d.cols

/-- The first byte of the view's row `r` (R136). -/
def View.rowAt (v : View) (r : Nat) : Nat :=
  v.d.offset + v.pl * v.d.planeStride + (v.ro + r) * v.d.stride + v.co * fmtBits v.d.fmt / 8

/-- Bytes of a row: with its padding when the view starts at column 0 (R109). -/
def View.rowBytes (v : View) : Nat :=
  if v.co = 0 then packedRow v.d.fmt v.d.cols else ceilDiv (fmtBits v.d.fmt * v.d.cols) 8

/-- The first scale of the scale-plane row `i` of the view (R111). -/
def View.scaleAt (v : View) (i : Nat) : Nat :=
  let plane := v.d.offset + v.pl * v.d.planeStride + v.d.scaleOff
  if v.d.dir then plane + (v.ro / v.d.blockSize + i) * v.d.scaleStride + v.co
  else plane + (v.ro + i) * v.d.scaleStride + v.co / v.d.blockSize

/-- Bytes of a scale-plane row that a writer of the view writes. -/
def View.scaleBytes (v : View) : Nat := if v.co = 0 then v.d.scaleStride else v.d.scaleCols

/-- The runs of bytes the view covers: offset and length, elements first. -/
def View.runs (v : View) : List (Nat × Nat) :=
  (List.range v.d.rows).map (fun r => (v.rowAt r, v.rowBytes)) ++
    (List.range v.d.scaleRows).map fun i => (v.scaleAt i, v.scaleBytes)

/-- The end of the view within its area. -/
def View.end_ (v : View) : Nat :=
  max (v.rowAt (v.d.rows - 1) + v.rowBytes)
    (if v.d.scaleRows = 0 then 0 else v.scaleAt (v.d.scaleRows - 1) + v.scaleBytes)

/-- Bytes of the view's elements and scales without padding between rows. -/
def View.bytes (v : View) : Nat := v.d.rows * packedRow v.d.fmt v.d.cols + v.d.scaleRows * v.d.scaleCols

/-! ## Packing (R109) -/

/-- Bytes that hold whole elements, and the elements in them. -/
def unitBytes (b : Nat) : Nat := if b ≤ 8 then 3 else b / 8
def unitElems (b : Nat) : Nat := 8 * unitBytes b / b

/-- The `n` elements of `b` bits packed in a row. -/
def unpack (b n : Nat) (bs : Bytes) : List Nat :=
  ((chunks (unitBytes b) (bs.length + 1) bs).flatMap fun c =>
    (List.range (unitElems b)).map fun i => leNat c / 2 ^ (b * i) % 2 ^ b).take n

/-- Elements of `b` bits packed into bytes, with zero bits after the last. -/
def packBits (b : Nat) (codes : List Nat) : Bytes :=
  ((chunks (unitElems b) (codes.length + 1) codes).flatMap fun c =>
    leBytes (unitBytes b) (c.zipIdx.map fun e => e.1 * 2 ^ (b * e.2)).sum).take (ceilDiv (b * codes.length) 8)

/-! ## Reading -/

/-- The element codes of row `r`. -/
def State.rowCodes (s : State) (v : View) (r : Nat) : List Nat :=
  let b := fmtBits v.d.fmt
  unpack b v.d.cols (s.readArea v.area (v.rowAt r) (ceilDiv (b * v.d.cols) 8))

/-- The element codes of a view, row by row. -/
def State.codes (s : State) (v : View) : List (List Nat) := (List.range v.d.rows).map (s.rowCodes v)

/-- The scale codes of a view by scale-plane row; empty for an unscaled tile. -/
def State.scales (s : State) (v : View) : List (List Nat) :=
  (List.range v.d.scaleRows).map fun i => (s.readArea v.area (v.scaleAt i) v.d.scaleCols).map fun b => b.toNat

/-- A tile as read: element codes and scale codes. -/
structure Tile where
  codes : List (List Nat)
  scales : List (List Nat)
  deriving DecidableEq, Repr

def State.tile (s : State) (v : View) : Tile := { codes := s.codes v, scales := s.scales v }

/-- Entry (r, c) of a list of rows. -/
def cell (l : List (List Nat)) (r c : Nat) : Nat := (l.getD r []).getD c 0

/-- The scale of element (r, c). -/
def TileDesc.scaleOf (d : TileDesc) (scales : List (List Nat)) (r c : Nat) : Scale :=
  if d.sfmt = 0 then .mag 1 0
  else decodeScale d.sfmt (if d.dir then cell scales (r / d.blockSize) c else cell scales r (c / d.blockSize))

/-- The exact value of element (r, c) (R112). -/
def TileDesc.value (d : TileDesc) (t : Tile) (r c : Nat) : Val :=
  decodeScaled (d.scaleOf t.scales r c) (decodeElem d.fmt (cell t.codes r c))

/-- The exact values of a view. -/
def State.values (s : State) (v : View) : List (List Val) :=
  let t := s.tile v
  t.codes.zipIdx.map fun row => row.1.zipIdx.map fun e =>
    decodeScaled (v.d.scaleOf t.scales row.2 e.2) (decodeElem v.d.fmt e.1)

/-- Some block that the view covers is poisoned. -/
def State.viewPoisoned (s : State) (v : View) : Bool := v.runs.any fun r => s.areaPoisoned v.area r.1 r.2

/-! ## Writing -/

/-- Write the elements of row `r` of a view, whose area is no sheet. -/
def State.putRow (v : View) (r : Nat) (codes : List Nat) (s : State) : State :=
  let b := fmtBits v.d.fmt
  let bs := packBits b codes
  let at_ := v.rowAt r
  let odd := b * codes.length % 8
  if v.co = 0 then s.writeArea v.area at_ (bs ++ List.replicate (v.rowBytes - bs.length) 0)
  else if odd = 0 then s.writeArea v.area at_ bs
  else
    let last := bs.length - 1
    let old := (leNat (s.readArea v.area (at_ + last) 1)) / 2 ^ odd * 2 ^ odd
    s.writeArea v.area at_ (bs.take last ++ [BitVec.ofNat 8 (leNat (bs.drop last) + old)])

/-- Write one scale-plane row. -/
def State.putScales (v : View) (i : Nat) (codes : List Nat) (s : State) : State :=
  let bs := codes.map fun c => BitVec.ofNat 8 c
  s.writeArea v.area (v.scaleAt i) (bs ++ List.replicate (v.scaleBytes - bs.length) 0)

/-- Write a tile through a view. -/
def State.putTile (v : View) (t : Tile) (s : State) : State :=
  let s := s.each t.codes.zipIdx fun s e => s.putRow v e.2 e.1
  s.each t.scales.zipIdx fun s e => s.putScales v e.2 e.1

/-- A tile in the order its bytes travel: packed rows, then scale-plane rows (log entry 30). -/
def TileDesc.serial (d : TileDesc) (t : Tile) : Bytes :=
  (t.codes.flatMap fun row =>
    let bs := packBits (fmtBits d.fmt) row
    bs ++ List.replicate (packedRow d.fmt d.cols - bs.length) 0) ++
  t.scales.flatMap fun row => row.map fun c => BitVec.ofNat 8 c

/-- The tile whose bytes arrived. -/
def TileDesc.parse (d : TileDesc) (bs : Bytes) : Tile :=
  let n := packedRow d.fmt d.cols
  let b := fmtBits d.fmt
  { codes := (List.range d.rows).map fun r => unpack b d.cols (slice bs (n * r) n)
    scales := (List.range d.scaleRows).map fun i =>
      (slice bs (n * d.rows + d.scaleCols * i) d.scaleCols).map fun c => c.toNat }

/-- The runs of keys that a view in a tile store covers (R69, R77). -/
def View.keyRuns (v : View) : List (Nat × Nat) :=
  match v.area with
  | .tile p => v.runs.map fun r => (tileKey p r.1, r.2)
  | _ => []

/-- The tile-store regions a view overlaps (R69). -/
def View.regions (v : View) : List Nat :=
  match v.area with
  | .tile _ => v.runs.flatMap fun r => (List.range (r.2 / 4096 + 2)).filterMap fun i =>
      let k := r.1 / 4096 + i
      if k * 4096 < r.1 + r.2 then some k else none
  | _ => []

/-! ## From operands to views -/

/-- The area of a descriptor for physical core `p` running resident slot `slot`; SHEET views name their local shard slot and
variant. -/
def TileDesc.area (d : TileDesc) (p slot shard variant : Nat) : Area :=
  if d.space = spTile then .tile p
  else if d.space = spSpread then .spread
  else if d.space = spNear then .near (hubOf p)
  else if d.space = spHubc then .hubc (if d.hubField = 0xFF then hubOf p else d.hubField % 8)
  else if d.space = spConst then .const slot (hubOf p)
  else .sheet d.tensor shard variant

/-- A view of operand field `w` over descriptor `d`. -/
def viewOf (d : TileDesc) (w : BitVec 64) (p slot : Nat) (shard : Nat := 0) (variant : Nat := 0) : View :=
  { area := d.area p slot shard variant, d, ro := opRow w, co := opCol w, pl := opPlane w }

/-- A descriptor as core `p` sees it, with the replay format of R185. -/
def State.descAt (s : State) (p : Nat) (plan : Plan) (i : Nat) : Option TileDesc :=
  (plan.tiles[i]?).map fun d =>
    match (s.core p).overrides.find? fun e => e.1 = i with
    | some e => { d with fmt := e.2 }
    | none => d

/-- The view of an operand field; none where it names no descriptor of the plan. -/
def State.view? (s : State) (p slot : Nat) (plan : Plan) (w : BitVec 64) (shard : Nat := 0) (variant : Nat := 0) : Option View :=
  (s.descAt p plan (opDesc w)).map fun d => viewOf d w p slot shard variant

end Sys2Proof.Machine
end

