-- ==== Sys2Proof/Machine/PlanFile.lean ====
section
/-! DEFINITION. The plan file: its header, section table and sections (R131 to R133, R137, R141, R147 to R151, R172), read
into a `Plan` with the checks of check 1 of R154. -/
namespace Sys2Proof.Machine

/-- A refusal of the loader: status and the 10-byte detail of R162, byte 0 lowest. -/
structure Refused where
  status : Nat
  detail : Nat
  deriving DecidableEq, Repr

/-- The outcome of a loader check. -/
abbrev Chk (α : Type) := Except Refused α

/-- The detail of R162; an absent field reads as all ones. -/
structure PlanPlace where
  sec : Nat := 0xFF
  variant : Nat := 0xFF
  block : Nat := 0xFFFF
  strand : Nat := 0xFF
  op : Nat := 0xFFFFFF
  frame : Nat := 0xFFFF
  deriving DecidableEq, Repr

def PlanPlace.detail (p : PlanPlace) : Nat :=
  p.sec % 2 ^ 8 + p.variant % 2 ^ 8 * 2 ^ 8 + p.block % 2 ^ 16 * 2 ^ 16 + p.strand % 2 ^ 8 * 2 ^ 32 +
    p.op % 2 ^ 24 * 2 ^ 40 + p.frame % 2 ^ 16 * 2 ^ 64

def refuse {α : Type} (status : Nat) (p : PlanPlace := {}) : Chk α := .error ⟨status, p.detail⟩

/-- Refuse unless `b`. -/
def need (b : Bool) (status : Nat) (p : PlanPlace := {}) : Chk Unit := if b then .ok () else refuse status p

/-- Check every element in order. -/
def checkAll {α : Type} (f : α → Chk Unit) : List α → Chk Unit
  | [] => .ok ()
  | x :: xs =>
    match f x with
    | .ok () => checkAll f xs
    | .error e => .error e

/-! ## Section types (R132) -/

def secCode : Nat := 1
def secTiles : Nat := 2
def secTokens : Nat := 3
def secCircuits : Nat := 4
def secWidth : Nat := 5
def secContours : Nat := 6
def secConstants : Nat := 7
def secUpdate : Nat := 8
def secSlack : Nat := 9
def secVector : Nat := 10
def secRolemap : Nat := 11

/-- A section: its table entry and its bytes. -/
structure PlanSection where
  type : Nat
  role : Nat
  offset : Nat
  length : Nat
  count : Nat
  data : Bytes
  deriving DecidableEq, Repr

/-- Bytes of one entry, 0 where entries have their own lengths, and the most entries (R132). -/
def entryLimit (t : Nat) : Nat × Nat :=
  if t = secTiles then (32, 65535)
  else if t = secCircuits then (32, 256)
  else if t = secWidth then (4, 12)
  else if t = secContours then (48, 4)
  else if t = secUpdate then (272, 256)
  else if t = secSlack then (2, 131072)
  else if t = secVector then (4, 1024)
  else if t = secRolemap then (1, 4096)
  else (0, 2 ^ 32)

/-- Two runs [a, b) and [c, d) share a byte. -/
def overlaps (a b c d : Nat) : Bool := decide (max a c < min b d)

/-- Every two elements satisfy `f`. -/
def pairwise {α : Type} (f : α → α → Bool) : List α → Bool
  | [] => true
  | x :: xs => xs.all (f x) && pairwise f xs

def parseSections (body : Bytes) (n : Nat) : List PlanSection :=
  (List.range n).map fun i =>
    let o := 16 * i
    let off := field body (o + 4) 4
    let len := field body (o + 8) 4
    { type := field body o 2, role := field body (o + 2) 2, offset := off, length := len, count := field body (o + 12) 4
      data := (body.drop off).take len }

/-- A section lies inside the body, clear of the section table, and is of a known or an optional type. -/
def PlanSection.sound (bodyLen n : Nat) (s : PlanSection) : Bool :=
  let (size, limit) := entryLimit s.type
  s.offset % 64 = 0 && s.offset + s.length ≤ bodyLen && !overlaps s.offset (s.offset + s.length) 0 (16 * n) &&
    ((1 ≤ s.type && s.type ≤ 11) || 2 ^ 15 ≤ s.type) && (s.role ≤ 15 || s.role = 0xFFFF) &&
    s.count ≤ limit && size * s.count ≤ s.length && (s.type ≠ secConstants || s.length ≤ 64 * 2 ^ 20)

/-- The section of a type that serves every role. -/
def partOf? (l : List PlanSection) (t : Nat) : Option PlanSection := l.find? fun s => s.type = t

/-- The section of a type that serves role `r`. -/
def sectionOf (l : List PlanSection) (t r : Nat) : Option PlanSection :=
  l.find? fun s => s.type = t && (s.role = r || s.role = 0xFFFF)

/-- Two sections that may not stand in one file: overlapping, or of one type for one role. -/
def sectionsAgree (a b : PlanSection) : Bool :=
  !overlaps a.offset (a.offset + a.length) b.offset (b.offset + b.length) &&
    (a.type ≠ b.type || 2 ^ 15 ≤ a.type ||
      ((a.type = secCode || a.type = secTokens) && a.role ≠ b.role && a.role ≠ 0xFFFF && b.role ≠ 0xFFFF))

/-- The sections that a token-mode or a scoreboard plan must and may hold (R132). -/
def presence (scoreboard : Bool) (roles : Nat) (l : List PlanSection) : Option Nat :=
  let absent := fun t => (partOf? l t).isNone
  let has := fun t => (partOf? l t).isSome
  if scoreboard then
    if absent secCode || 1 < roles || 1 < (l.filter fun s => s.type = secCode).length then some secCode
    else if absent secTiles then some secTiles
    else [secTokens, secCircuits, secWidth, secContours, secUpdate, secSlack, secRolemap].find? has
  else if (List.range roles).any fun r => (sectionOf l secCode r).isNone then some secCode
  else if absent secTiles then some secTiles
  else if (List.range roles).any fun r => (sectionOf l secTokens r).isNone then some secTokens
  else if has secCircuits && absent secWidth then some secWidth
  else if absent secContours then some secContours
  else if 1 < roles && absent secRolemap then some secRolemap
  else none

/-! ## Entries -/

/-- A tile descriptor (R134). -/
def parseTile (b : Bytes) : TileDesc :=
  let w7 := field b 7 1
  let w8 := field b 8 2
  { base := field b 0 6, space := natBits (field b 6 1) 3 0, fmt := natBits w7 3 0, sfmt := natBits w7 5 4
    block := natBits w7 7 6, rows := natBits w8 11 0 + 1, dir := natBit w8 12, cols := natBits (field b 10 2) 11 0 + 1
    stride := field b 12 4, scaleOff := field b 16 4, planeStride := field b 20 4, planes := field b 24 1 + 1 }

/-- A macro-op (R137). -/
def parseOp (b : Bytes) : RawOp :=
  let w3 := field b 3 1
  let w4 := field b 4 1
  let w5 := field b 5 1
  let w6 := field b 6 2
  { opcode := field b 0 2
    op :=
      { flags := BitVec.ofNat 8 (field b 2 1), waitQ := Fin.ofNat 32 (w3 / 8), waitN := BitVec.ofNat 3 w3
        postQ := Fin.ofNat 32 (w4 / 8), postN := BitVec.ofNat 3 w4, fmtMod := BitVec.ofNat 4 w5
        rnd := BitVec.ofNat 2 (w5 / 16), pass := BitVec.ofNat 2 w6, variantSlot := BitVec.ofNat 12 (w6 / 4)
        op0 := BitVec.ofNat 64 (field b 8 8), op1 := BitVec.ofNat 64 (field b 16 8), op2 := BitVec.ofNat 64 (field b 24 8) } }

/-- Pieces of `n` bytes of a run. -/
def entries (n count : Nat) (b : Bytes) : List Bytes := (List.range count).map fun i => (b.drop (n * i)).take n

/-- Put a number into a rising list without repeats. -/
def insertAsc (n : Nat) : List Nat → List Nat
  | [] => [n]
  | h :: t => if n < h then n :: h :: t else if n = h then h :: t else h :: insertAsc n t

/-- The place of `x` in a list. -/
def indexIn (x : Nat) (l : List Nat) : Option Nat := (l.zipIdx.find? fun e => e.1 = x).map fun e => e.2

/-- Table entries of R133; 0xFFFFFFFF is none. -/
def word? (b : Bytes) (off : Nat) : Option Nat :=
  let v := field b off 4
  if v = 0xFFFFFFFF then none else some v

/-- A code block from `o` up to `e` (R133). -/
def parseBlock (b : Bytes) (o e : Nat) : CodeBlock :=
  { strands := (List.range 64).map fun s => word? b (o + 4 * s)
    ops := (entries 32 ((e - o - 256) / 32) (b.drop (o + 256))).map parseOp }

/-- A CODE section with its TOKENS section, if any (R133). A code block without room for its 64 strand entries is refused with 0x0103 (log entry
155). -/
def parseRole (code : Bytes) (tokens : Option Bytes) : Chk Role :=
  let table := (List.range 120).map fun n => word? code (4 * n)
  let offs := (table.filterMap id).foldl (fun l o => insertAsc o l) []
  let ends := offs.drop 1 ++ [code.length]
  let pairs := offs.zip ends
  if code.length < 480 then refuse 0x0103 { sec := secCode }
  else
    match pairs.zipIdx.find? fun e => decide (e.1.1 < 480) || decide (code.length < e.1.1 + 256) || decide (e.1.2 < e.1.1 + 256) with
    | some e => refuse 0x0103 { sec := secCode, block := e.2 }
    | none =>
      if tokens.any fun t => decide (t.length < 32 * offs.length) then refuse 0x0103 { sec := secTokens }
      else
        .ok
          { cores := table.map fun o => o.bind fun x => indexIn x offs
            blocks := pairs.map fun e => parseBlock code e.1 e.2
            tokens := match tokens with
              | some t => (entries 32 offs.length t).map fun b => b.map fun v => v.toNat
              | none => [] }

/-- A circuit entry (R148). -/
def parseCircuit (b : Bytes) : Circuit :=
  { id := field b 0 1, bearing := field b 1 1, hops := field b 2 1, units := field b 3 1, srcCore := field b 4 1
    dstCore := field b 5 1, mode := field b 6 1, maxBytes := field b 8 4 }

def parseCut (b : Bytes) : Cut :=
  let v := leNat b
  { block := natBits v 15 0, strand := natBits v 21 16, role := natBits v 31 22, frame := natBits v 47 32, count := natBits v 63 48 }

def parseSlot (b : Bytes) : SlotEntry :=
  let v := leNat b
  { circuit := natBits v 7 0, frame := natBits v 23 8, start := natBits v 55 24, payload := natBits v 95 56 }

/-- The records of a CONTOURS section with their tables (R150). -/
def parseContours : Nat → Bytes → Chk (List Variant)
  | 0, _ => .ok []
  | n + 1, b =>
    let cuts := field b 8 4
    let slots := field b 12 4
    let len := 48 + 8 * cuts + 12 * slots
    if b.length < len || b.length < 48 then refuse 0x0103 { sec := secContours }
    else
      let v : Variant :=
        { contour := field b 0 1, frames := field b 4 4, cuts := (entries 8 cuts (b.drop 48)).map parseCut
          slots := (entries 12 slots (b.drop (48 + 8 * cuts))).map parseSlot
          est := (List.range 4).map fun i => field b (16 + 4 * i) 4, predNs := field b 32 4 }
      match parseContours n (b.drop len) with
      | .ok vs => .ok (v :: vs)
      | .error e => .error e

/-- A vector instruction (R141). -/
def parseVInstr (b : Bytes) : VInstr :=
  let w := field b 0 4
  { vop := natBits w 7 0, dst := natBits w 13 8, a := natBits w 19 14, b := natBits w 25 20, c := natBits w 31 26
    imm := BitVec.ofNat 32 (field b 4 4) }

/-- The programs of a VECTOR section from offset `off` on (R141). -/
def parseVectors (b : Bytes) : Nat → Nat → Chk (List (List VInstr))
  | 0, _ => .ok []
  | n + 1, off =>
    let count := field b off 4
    let e := off + 4 + 8 * count
    if b.length < off + 4 || b.length < e then refuse 0x0103 { sec := secVector }
    else
      match parseVectors b n (roundUp e 64) with
      | .ok ps => .ok ((entries 8 count (b.drop (off + 4))).map parseVInstr :: ps)
      | .error e => .error e

/-- An update instruction (R172). -/
def parseUInstr (b : Bytes) : UInstr :=
  let w := field b 0 4
  { uop := natBits w 7 0, dst := natBits w 12 8, a := natBits w 17 13, b := natBits w 22 18, c := natBits w 27 23
    imm := BitVec.ofNat 32 (field b 4 4) }

/-- An update program (R172). -/
def parseUProg (b : Bytes) : UProg :=
  let nops := field b 0 1
  { nops, kind := field b 1 1, rnd := natBits (field b 2 1) 1 0, nacc := field b 3 1, stream := natBits (field b 4 2) 13 0
    instrs := (entries 8 (min 32 nops) (b.drop 16)).map parseUInstr }

/-! ## The file -/

/-- The header checks of R131 after MAGIC. -/
def headerOk (file : Bytes) : Bool :=
  let b := fun o n => field file o n
  let level := b 4 1
  let roles := b 7 1
  let last := natBit (b 5 1) 2
  1 ≤ level && level ≤ 3 && b 6 1 = 1 && b 50 1 ≤ 1 && b 8 4 + 64 = file.length && b 8 4 ≤ 256 * 2 ^ 20 && 1 ≤ roles && roles ≤ 16 &&
    (level ≠ 1 || roles = 1) && (roles = 1 || b 14 1 ≤ 5) && 1 ≤ b 12 2 && b 12 2 ≤ 32 && (last == decide (b 15 1 ≠ 0)) &&
    b 48 1 ≤ 17 && b 49 1 ≤ b 48 1

/-- The roles of a plan. -/
def parseRoles (l : List PlanSection) : Nat → Nat → Chk (List Role)
  | 0, _ => .ok []
  | n + 1, r =>
    match (sectionOf l secCode r).map fun c => parseRole c.data ((sectionOf l secTokens r).map fun t => t.data) with
    | none => refuse 0x0103 { sec := secCode }
    | some (.error e) => .error e
    | some (.ok role) =>
      match parseRoles l n (r + 1) with
      | .ok rs => .ok (role :: rs)
      | .error e => .error e

/-- The entries of an optional section, `n` bytes each. -/
def listed (l : List PlanSection) (t n : Nat) : List Bytes :=
  match partOf? l t with
  | some s => entries n s.count s.data
  | none => []

/-- Read a plan file (check 1 of R154). -/
def parsePlan (file : Bytes) : Chk Plan := do
  let b := fun o n => field file o n
  need (64 ≤ file.length && b 0 4 = 0x48435448) 0x0101
  need (headerOk file) 0x0102
  let body := file.drop 64
  let hash := sha256 body
  need (hash = (file.drop 16).take 32) 0x0401
  let n := b 12 2
  let roles := b 7 1
  let scoreboard := natBit (b 5 1) 0
  need (16 * n ≤ body.length) 0x0103
  let secs := parseSections body n
  checkAll (fun s => need (s.sound body.length n) 0x0103 { sec := s.type }) secs
  need (pairwise sectionsAgree secs) 0x0103
  match presence scoreboard roles secs with
  | some t => refuse 0x0103 { sec := t }
  | none =>
    let roleMap := match partOf? secs secRolemap with
      | some s => (s.data.take s.count).map fun v => v.toNat
      | none => []
    need (roleMap.all fun r => r < roles) 0x0103 { sec := secRolemap }
    let vectors ← match partOf? secs secVector with
      | some s => parseVectors s.data s.count 0
      | none => .ok []
    let variants ← match partOf? secs secContours with
      | some s => parseContours s.count s.data
      | none => .ok []
    let code ← parseRoles secs roles 0
    return {
      level := b 4 1, scoreboard, twin := natBit (b 5 1) 1, lastPhase := natBit (b 5 1) 2, numrev := b 6 1, roles
      roleAxis := b 14 1, sealFrames := b 15 1, vLog2 := b 48 1, spmLog2 := b 49 1, profile := b 50 1, bodyHash := hash
      tiles := (listed secs secTiles 32).map parseTile, code, circuits := (listed secs secCircuits 32).map parseCircuit
      width := (partOf? secs secWidth).map fun s => (entries 4 s.count s.data).map fun e => natBits (leNat e) 4 0
      variants, constants := (partOf? secs secConstants).map fun s => s.data
      updates := (listed secs secUpdate 272).map parseUProg, vectors
      slack := if b 4 1 = 1 then [] else (listed secs secSlack 2).map leNat, roleMap }

end Sys2Proof.Machine
end

