-- ==== Sys2Proof/Machine/PlanCheck.lean ====
section
/-! DEFINITION. The loader's checks 2 to 6, 9 and 10 (R154): descriptors and spaces (R134, R135), opcodes, fields and circuits (R133, R137,
R138, R148), operands (R136, R139), programs (R140, R141, R171 to R175), contour records (R150), code size (R79) and licences. -/
namespace Sys2Proof.Machine

/-! ## Opcodes (R138) -/

def ocFence : Nat := 0x0003
def ocFrameEnd : Nat := 0x0004
def ocLoad : Nat := 0x0800
def ocStore : Nat := 0x0801
def ocGather : Nat := 0x0802
def ocScatter : Nat := 0x0803
def ocFill : Nat := 0x0804
def ocMma : Nat := 0x1000
def ocMmas : Nat := 0x1001
def ocVprog : Nat := 0x1800
def ocVred : Nat := 0x1801
def ocSeed : Nat := 0x1802
def ocSend : Nat := 0x2000
def ocRecv : Nat := 0x2001
def ocPut : Nat := 0x2002
def ocGet : Nat := 0x2003
def ocCred : Nat := 0x2004
def ocTurn : Nat := 0x2800
def ocUpda : Nat := 0x2801
def ocUpdb : Nat := 0x2802
def ocUpds : Nat := 0x2803

/-- The lowest level that accepts an opcode; none for an opcode outside R138. -/
def opLevel (oc : Nat) : Option Nat :=
  if oc ≤ 4 || (0x0800 ≤ oc && oc ≤ 0x0804) || oc = ocMma || oc = ocVprog || oc = ocVred || (0x2000 ≤ oc && oc ≤ 0x2003) ||
      (0x2800 ≤ oc && oc ≤ 0x2803) then some 1
  else if oc = ocMmas || oc = ocSeed then some 2
  else if oc = ocCred then some 3
  else none

/-- The unit of an opcode; none for the sequencer's (R56). -/
def opUnit (oc : Nat) : Option ExecUnit :=
  if 0x0800 ≤ oc && oc ≤ 0x0804 then some .mv
  else if oc = ocMma || oc = ocMmas then some .mx
  else if 0x1800 ≤ oc && oc ≤ 0x1802 then some .vx
  else if 0x2000 ≤ oc && oc ≤ 0x2004 then some .nx
  else if 0x2800 ≤ oc && oc ≤ 0x2803 then some .hq
  else none

def isUpdate (oc : Nat) : Bool := oc = ocUpda || oc = ocUpdb || oc = ocUpds

/-- An operand view with what the macro-op does to it. -/
structure OpView where
  w : BitVec 64
  rd : Bool
  wr : Bool
  /-- The view lies at another core or module (R144, R145). -/
  remote : Bool := false
  deriving DecidableEq, Repr

/-- ZERO of MMA and MMAS, LOCAL of CRED (R139). -/
def opZero (m : MacroOp) : Bool := m.flags.getLsbD 0
def opLocal (m : MacroOp) : Bool := m.flags.getLsbD 4
def opOrdered (m : MacroOp) : Bool := m.flags.getLsbD 1

/-- The target word of PUT and GET (R145). -/
def tgtRank (w : BitVec 64) : Nat := natBits w.toNat 16 0
def tgtRel (w : BitVec 64) : Bool := natBit w.toNat 17
def tgtCore (w : BitVec 64) : Nat := natBits w.toNat 24 18
def tgtAop (w : BitVec 64) : Nat := natBits w.toNat 28 25

/-- The operand views of a macro-op (R139). -/
def RawOp.views (o : RawOp) : List OpView :=
  let m := o.op
  let r (w : BitVec 64) : OpView := { w, rd := true, wr := false }
  let w (x : BitVec 64) : OpView := { w := x, rd := false, wr := true }
  let oc := o.opcode
  (if oc = ocLoad || oc = ocStore || oc = ocVred || oc = ocTurn then [w m.op0, r m.op1]
   else if oc = ocGather || oc = ocScatter || oc = ocVprog || oc = ocCred then [w m.op0, r m.op1, r m.op2]
   else if oc = ocFill || oc = ocRecv then [w m.op0]
   else if oc = ocMma || oc = ocMmas then
     [{ w := m.op0, rd := !opZero m, wr := true }, r m.op1, r m.op2] ++
       (if oc = ocMmas then [w (withDesc m.op0 (opExt m.op0))] else [])
   else if oc = ocSend || oc = ocPut then [{ w := m.op0, rd := false, wr := true, remote := true }, r m.op1]
   else if oc = ocGet then [w m.op0, { w := m.op1, rd := true, wr := false, remote := true }]
   else if oc = ocUpda then [r m.op0, w m.op1]
   else if oc = ocUpdb then [{ w := m.op0, rd := true, wr := true }, r m.op1]
   else if oc = ocUpds then [{ w := m.op0, rd := true, wr := true }, r m.op1, r m.op2]
   else []).filter fun v => !noOperand v.w

/-! ## Streams (R133, R150) -/

/-- The cut counts of a strand in a variant, in frame order: frame and count. -/
def Variant.cutsOf (v : Variant) (role block strand : Nat) : List (Nat × Nat) :=
  (v.cuts.filter fun c => c.role = role && c.block = block && c.strand = strand).map fun c => (c.frame, c.count)

/-- The macro-ops that a strand's stream takes from its block. -/
def Plan.streamLen (p : Plan) (role block strand : Nat) : Nat :=
  match p.variants.head? with
  | some v => ((v.cutsOf role block strand).map fun c => c.2).sum
  | none => 0

/-- The macro-ops up to and with the first FRAME_END; none where there is none. -/
def untilEnd : List RawOp → Option (List RawOp)
  | [] => none
  | o :: t => if o.opcode = ocFrameEnd then some [o] else (untilEnd t).map fun l => o :: l

/-- A strand's stream: its macro-ops without the FRAME_ENDs that the loader places; none where it leaves its block. -/
def Plan.stream? (p : Plan) (role block strand : Nat) : Option (List RawOp) :=
  match (p.code[role]?).bind fun r => r.blocks[block]? with
  | none => some []
  | some b =>
    match b.strands.getD strand none with
    | none => some []
    | some e =>
      let rest := b.ops.drop e
      if p.scoreboard then untilEnd rest
      else
        let n := p.streamLen role block strand
        if rest.length < n then none else some (rest.take n)

def Plan.stream (p : Plan) (role block strand : Nat) : List RawOp := (p.stream? role block strand).getD []

/-- One macro-op of a plan with its place. -/
structure Use where
  role : Nat
  block : Nat
  strand : Nat
  idx : Nat
  op : RawOp
  deriving DecidableEq, Repr

def Use.place (u : Use) : PlanPlace := { sec := secCode, block := u.block, strand := u.strand, op := u.idx }

/-- (role, block) of every code block. -/
def Plan.blockList (p : Plan) : List (Nat × Nat) :=
  p.code.zipIdx.flatMap fun r => (List.range r.1.blocks.length).map fun b => (r.2, b)

/-- Every macro-op of every strand. -/
def Plan.uses (p : Plan) : List Use :=
  p.blockList.flatMap fun rb => (List.range 64).flatMap fun t =>
    (p.stream rb.1 rb.2 t).zipIdx.map fun e => { role := rb.1, block := rb.2, strand := t, idx := e.2, op := e.1 }

/-- The core-table entries that run a block. -/
def Plan.coresOf (p : Plan) (role block : Nat) : List Nat :=
  match p.code[role]? with
  | some r => (List.range 120).filter fun n => r.cores.getD n none = some block
  | none => []

/-! ## Check 2: descriptors and spaces -/

/-- Level 1 admits these element formats (R152). -/
def level1Fmts : List Nat := [0, 1, 2, 3, 4, 8, 9, 0xA, 0xB, 0xC]

/-- Runs of equal length at equal distances: first byte, distance, number, length. -/
structure Comb where
  at_ : Nat
  step : Nat
  n : Nat
  len : Nat

/-- A run of the comb shares a byte with [a, b). -/
def Comb.hits (c : Comb) (a b : Nat) : Bool :=
  let first := if a < c.at_ + c.len then 0 else (a - c.at_ - c.len) / c.step + 1
  decide (a < b) && decide (0 < c.len) && decide (first < c.n) && decide (c.at_ + first * c.step < b)

/-- Two combs share a byte, the second moved up by `o`. -/
def Comb.meets (c d : Comb) (o : Nat) : Bool := (List.range d.n).any fun i => c.hits (d.at_ + o + i * d.step) (d.at_ + o + i * d.step + d.len)

/-- The element rows and the scale plane of one plane, relative to its base; row padding belongs to neither (R109, R111). -/
def TileDesc.planeRuns (d : TileDesc) : List Comb :=
  { at_ := 0, step := d.stride, n := d.rows, len := packedRow d.fmt d.cols } ::
    (if d.sfmt = 0 then [] else [{ at_ := d.scaleOff, step := 1, n := 1, len := d.scaleRows * d.scaleStride }])

/-- The end of a descriptor's planes. -/
def TileDesc.end_ (d : TileDesc) : Nat :=
  d.offset + (d.planes - 1) * (if d.planes = 1 then 0 else d.planeStride) +
    (d.planeRuns.map fun r => r.at_ + (r.n - 1) * r.step + r.len).foldl max 0

/-- No two planes share a byte: it is enough to compare plane 0 with every other. -/
def TileDesc.planesApart (d : TileDesc) : Bool :=
  (List.range (d.planes - 1)).all fun i =>
    let o := (i + 1) * d.planeStride
    d.planeRuns.all fun a => d.planeRuns.all fun b => !a.meets b o && !(o = 0 && b.meets a 0)

/-- The rules of R78, R107, R110, R111, R134, R135 and R152 that need no registration. -/
def TileDesc.sound (d : TileDesc) (level : Nat) : Bool :=
  d.space ≤ 5 && d.fmt ≠ 0xF && (level ≠ 1 || level1Fmts.contains d.fmt) && d.sfmt ≠ 3 && (d.sfmt = 0 || scalable d.fmt) &&
    (level ≠ 1 || d.sfmt = 0 || (d.sfmt = 1 && d.block = 1)) && d.stride % 64 = 0 && packedRow d.fmt d.cols ≤ d.stride &&
    (d.planes = 1 || d.planeStride % 64 = 0) &&
    (d.sfmt = 0 || (d.scaleOff % 64 = 0 && pairwise (fun a b => !a.meets b 0) d.planeRuns)) && d.planesApart &&
    (d.space ≠ spTile || (d.base % 64 = 0 && d.end_ ≤ tileBytes)) &&
    (d.space ≠ spHubc || d.hubField < 8 || d.hubField = 0xFF)

/-- A SHEET descriptor agrees with its tensor's registration (R135). -/
def TileDesc.sheetSound (d : TileDesc) (t : Tensor) : Bool :=
  let b := fmtBits t.fmt
  let col := d.offset % t.rowStride * 8
  d.fmt = t.fmt && d.sfmt = 0 && d.planes = 1 && d.stride = t.rowStride && col % b = 0 && col / b < t.cols

/-- The bytes of a space that a view of physical core `p` may touch. -/
def State.spaceLimit (s : State) (plan : Plan) (p : Nat) (d : TileDesc) : Nat :=
  if d.space = spConst then (plan.constants.getD []).length else s.areaSize (d.area p 0 0 0)

/-- The core whose spaces an operand view names. -/
def RawOp.viewCore (o : RawOp) (plan : Plan) (v : OpView) (n : Nat) : Nat :=
  if !v.remote then n
  else if o.opcode = ocSend then
    match plan.circuits.find? fun c => c.id = opExt o.op.op0 with
    | some c => c.dstCore
    | none => n
  else if tgtCore o.op.op2 = 127 then n else tgtCore o.op.op2

/-- The physical cores whose code uses descriptor `i`. -/
def State.usersOf (s : State) (plan : Plan) (i : Nat) : List Nat :=
  (plan.uses.filter fun u => u.op.views.any fun v => opDesc v.w = i).flatMap fun u =>
    (u.op.views.filter fun v => opDesc v.w = i).flatMap fun v =>
      (plan.coresOf u.role u.block).map fun n => s.coreFor plan.twin (u.op.viewCore plan v n)

def State.checkDesc (s : State) (plan : Plan) (e : TileDesc × Nat) : Chk Unit := do
  let d := e.1
  let at_ : PlanPlace := { sec := secTiles }
  let named : PlanPlace := { at_ with block := e.2 }
  need (d.sound plan.level) 0x0104 named
  if d.space = spSheet then
    match s.tensor? d.tensor with
    | none => refuse 0x0304 at_
    | some t =>
      need (d.sheetSound t) 0x0104 named
      need (d.end_ ≤ t.paramBytes) 0x0304 at_
  else if d.space = spNear then
    need ((s.usersOf plan e.2).all fun p => d.end_ ≤ s.spaceLimit plan p d) 0x0304 at_
  else need (d.end_ ≤ s.spaceLimit plan 0 d) 0x0304 at_

def State.check2 (s : State) (plan : Plan) : Chk Unit := checkAll (s.checkDesc plan) plan.tiles.zipIdx

/-! ## Check 3: opcodes, fields, code blocks and circuits -/

/-- The descriptor whose format FMT_MOD repeats (R137). -/
def RawOp.fmtDesc (o : RawOp) : Option Nat :=
  if o.opcode = ocMma || o.opcode = ocVprog || o.opcode = ocVred || o.opcode = ocFill then some (opDesc o.op.op0)
  else if o.opcode = ocMmas then some (opExt o.op.op0)
  else none

def checkFields (plan : Plan) (u : Use) : Chk Unit := do
  let o := u.op
  let m := o.op
  need ((opLevel o.opcode).any fun l => l ≤ plan.level) 0x0105 u.place
  need (plan.scoreboard || o.opcode ≠ ocFrameEnd) 0x0105 u.place
  need (!plan.scoreboard || !(0x2000 ≤ o.opcode && o.opcode ≤ 0x2004)) 0x010D u.place
  need (match o.fmtDesc with
    | some i => (plan.tiles[i]?).any fun d => d.fmt = m.fmtMod.toNat
    | none => m.fmtMod = 0) 0x0106 u.place
  need (if o.opcode = ocMma || o.opcode = ocMmas then m.pass ≠ 0 else m.pass = 0) 0x0106 u.place
  need (isUpdate o.opcode || m.variantSlot = 0) 0x0106 u.place

/-- Every strand's stream stays inside its block (R133). -/
def checkStream (plan : Plan) (rb : Nat × Nat) (t : Nat) : Chk Unit :=
  match (plan.code[rb.1]?).bind fun r => r.blocks[rb.2]? with
  | none => .ok ()
  | some b =>
    match b.strands.getD t none with
    | none => .ok ()
    | some e =>
      need (e < b.ops.length && (plan.stream? rb.1 rb.2 t).isSome) 0x0105 { sec := secCode, block := rb.2, strand := t, op := b.ops.length - e }

/-- No code block of a token-mode plan holds a FRAME_END, in a strand's stream or outside (R133); the detail names the macro-op by its place in the
block, with the strand all ones (log entry 155). -/
def checkEnds (plan : Plan) (rb : Nat × Nat) : Chk Unit :=
  match (plan.code[rb.1]?).bind fun r => r.blocks[rb.2]? with
  | none => .ok ()
  | some b => checkAll (fun e => need (plan.scoreboard || e.1.opcode ≠ ocFrameEnd) 0x0105 { sec := secCode, block := rb.2, op := e.2 }) b.ops.zipIdx

def checkCircuit (plan : Plan) (e : Circuit × Nat) : Chk Unit :=
  let c := e.1
  need (c.bearing ≤ 11 && c.hops ≠ 0 && 1 ≤ c.units && c.units ≤ 16 && c.srcCore ≤ 119 && c.dstCore ≤ 119 && c.mode < 3 &&
      c.maxBytes ≤ 2 ^ 20 && !((plan.circuits.take e.2).any fun d => d.id = c.id))
    0x0106 { sec := secCircuits }

def check3 (plan : Plan) : Chk Unit := do
  checkAll (fun rb => checkAll (checkStream plan rb) (List.range 64)) plan.blockList
  checkAll (checkFields plan) plan.uses
  checkAll (checkEnds plan) plan.blockList
  checkAll (checkCircuit plan) plan.circuits.zipIdx

/-! ## Check 4: operands, formats, shapes and rounding -/

/-- Two descriptors that a copy may join (R107). -/
def TileDesc.copies (a b : TileDesc) : Bool :=
  a.fmt = b.fmt && a.sfmt = b.sfmt && a.block = b.block && a.dir == b.dir

def TileDesc.sameShape (a b : TileDesc) : Bool := a.rows = b.rows && a.cols = b.cols

/-- An index view (R139). -/
def TileDesc.isIndex (d : TileDesc) (rows : Nat) : Bool :=
  d.space = spTile && d.fmt = 0xC && d.cols = 1 && d.rows = rows

/-- A view that R136 admits within `limit` bytes of its space. -/
def View.sound (v : View) (limit : Nat) : Bool :=
  v.pl < v.d.planes && v.co * fmtBits v.d.fmt % 8 = 0 &&
    (v.d.sfmt = 0 || (if v.d.dir then v.ro else v.co) % v.d.blockSize = 0) &&
    (v.d.space ≠ spTile || v.rowAt 0 % 64 = 0) && v.end_ ≤ limit

/-- The step block of a hub's cache (R169). -/
def stepBlock : Nat := 0x1FFFF00

/-- A written view that touches a step block. -/
def View.hitsStepBlock (v : View) : Bool :=
  v.d.space = spHubc && v.runs.any fun r => overlaps r.1 (r.1 + r.2) stepBlock (2 ^ 25)

/-- The format combinations of R87: true when D, A and B form one in the pass mode. -/
def mmaFormats (d a b pass : Nat) (scaledA scaledB : Bool) : Bool :=
  let narrow := fun f => [1, 2, 3, 4, 5, 6, 7, 8, 9, 0xA, 0xB].contains f
  let int := fun f => [8, 9, 0xA, 0xB].contains f
  if a = 0 || b = 0 then a = 0 && b = 0 && d = 0 && 1 ≤ pass && pass ≤ 3
  else
    narrow a && narrow b && pass = 1 &&
      (if int a && !scaledA && int b && !scaledB then d = 0xC else d = 0)

/-- Some byte of view `a` is a byte of view `b`. -/
def View.meets (a b : View) : Bool :=
  a.area = b.area && a.runs.any fun x => b.runs.any fun y => overlaps x.1 (x.1 + x.2) y.1 (y.1 + y.2)

/-- The circuit a SEND, RECV or CRED names. -/
def Plan.circuitOf (p : Plan) (m : MacroOp) : Option Circuit := p.circuits.find? fun c => c.id = opExt m.op0

/-- The loader slots of a plan: local shard slots per module. -/
def Plan.spm (p : Plan) : Nat := 2 ^ p.spmLog2

/-- The spaces, shapes and formats that a row of R139 states, for descriptors d0, d1, d2 of the operand fields. A PUT or GET whose far view lies in
HUBC of the target's own hub needs a target core: with CORE 127 there is no such hub (log entry 155). -/
def shapesOk (plan : Plan) (o : RawOp) (d0 d1 d2 : Option TileDesc) : Bool :=
  let m := o.op
  let oc := o.opcode
  let none2 := noOperand m.op2
  let tile := fun (d : TileDesc) => d.space = spTile
  let outer := fun (d : TileDesc) => d.space = spSpread || d.space = spNear || d.space = spHubc
  let both := fun (f : TileDesc → TileDesc → Bool) =>
    match d0, d1 with
    | some a, some b => f a b
    | _, _ => false
  let three := fun (f : TileDesc → TileDesc → TileDesc → Bool) =>
    match d0, d1, d2 with
    | some a, some b, some c => f a b c
    | _, _, _ => false
  if oc ≤ 4 then noOperand m.op0 && noOperand m.op1 && none2
  else if oc = ocLoad then none2 && both fun a b => tile a && !tile b && a.sameShape b && a.copies b
  else if oc = ocStore then none2 && both fun a b => outer a && tile b && a.sameShape b && a.copies b
  else if oc = ocGather then three fun a b c => tile a && c.isIndex a.rows && a.cols = b.cols && a.copies b
  -- R135 leaves SCATTER out of HUBC's writers, R139 admits it: log entry 119
  else if oc = ocScatter then three fun a b c => (outer a || tile a) && tile b && c.isIndex b.rows && a.cols = b.cols && a.copies b
  else if oc = ocFill then none2 && d0.any fun a => a.space ≠ spConst && a.space ≠ spSheet
  else if oc = ocMma || oc = ocMmas then
    three (fun d a b => tile d && tile a && tile b && d.rows = a.rows && d.cols = b.cols && a.cols = b.rows &&
      mmaFormats d.fmt a.fmt b.fmt m.pass.toNat (a.sfmt ≠ 0) (b.sfmt ≠ 0)) &&
    (oc = ocMma || (plan.tiles[opExt m.op0]?).any fun x =>
      tile x && (d0.any fun d => d.sameShape x) && (x.sfmt = 0 || !x.dir))
  else if oc = ocVprog then
    let fits := fun (a : TileDesc) (x : Option TileDesc) (w : BitVec 64) =>
      noOperand w || x.any fun b => tile b && (b.rows = a.rows || b.rows = 1) && (b.cols = a.cols || b.cols = 1)
    (d0.any fun a => tile a && fits a d1 m.op1 && fits a d2 m.op2) && opExt m.op0 < plan.vectors.length
  else if oc = ocVred then
    none2 && m.flags.toNat % 8 ≤ 4 && both fun a b =>
      tile a && tile b && (if m.flags.getLsbD 3 then a.rows = 1 && a.cols = b.cols else a.cols = 1 && a.rows = b.rows)
  else if oc = ocSeed then natBits m.op0.toNat 15 0 < plan.spm
  else if oc = ocSend then
    none2 && (plan.circuitOf m).any fun c =>
      (d1.any fun b => tile b && b.rows * packedRow b.fmt b.cols + b.scaleRows * b.scaleCols ≤ c.maxBytes) &&
        (if c.mode = 0 then both fun a b => tile a && a.sameShape b && a.copies b else c.mode = 1 && noOperand m.op0)
  else if oc = ocRecv then
    noOperand m.op1 && none2 && (d0.any tile) && (plan.circuitOf m).any fun c => c.mode = 1
  else if oc = ocPut || oc = ocGet then
    both fun a b =>
      let far := if oc = ocPut then a else b
      let near := if oc = ocPut then b else a
      let own := far.space = spHubc && far.hubField = 0xFF
      tile near && a.sameShape b && a.copies b && (oc = ocGet || outer far || tile far) && (!own || tgtCore m.op2 ≠ 127) &&
        (if oc = ocPut && far.space = spHubc then tgtAop m.op2 ≤ 4 else tgtAop m.op2 = 0) &&
        (tgtAop m.op2 = 0 || (if tgtAop m.op2 = 4 then a.fmt = 0xC else a.fmt = 0))
  else if oc = ocCred then
    three fun a b c =>
      [a, b, c].all (fun d => tile d && d.fmt = 0) && a.sameShape b && a.sameShape c &&
        (if opLocal m then opExt m.op1 < plan.spm && opExt m.op2 < plan.spm && opExt m.op1 ≠ opExt m.op2
         else (plan.circuitOf m).any fun x => x.mode = 2)
  else if oc = ocTurn then
    none2 && both fun a b =>
      a.space ≠ spConst && a.space ≠ spSheet && a.rows = b.cols && a.cols = b.rows && a.fmt = b.fmt && a.sfmt = b.sfmt &&
        a.block = b.block && (a.sfmt = 0 || a.dir != b.dir)
  else
    let prog := plan.updates[opExt m.op1]?
    (d0.any fun a => a.space = spSheet) && opExt m.op0 < plan.spm && prog.isSome &&
      (d1.any fun b => b.space = spHubc && b.fmt = 0 && b.rows = 1 &&
        (if oc = ocUpda then prog.any fun u => u.kind ≠ 0 || u.nacc = 0 || 4 < u.nacc || b.cols = u.nacc else b.cols ≤ 4)) &&
      (if oc = ocUpds then d2.any fun c => c.space = spTile && c.fmt = 0xC && c.cols = 1 else none2)

/-- Pairs of views of one macro-op that may not share a byte: D with A and B, an MMAS output with all (R86), and TURN's two (R212). -/
def apart (plan : Plan) (o : RawOp) (p : Nat) : Bool :=
  let view := fun (w : BitVec 64) => (plan.tiles[opDesc w]?).map fun d => viewOf d w p 0
  let clear := fun (a b : BitVec 64) =>
    match view a, view b with
    | some x, some y => !x.meets y
    | _, _ => true
  let m := o.op
  if o.opcode = ocMma then clear m.op0 m.op1 && clear m.op0 m.op2
  else if o.opcode = ocMmas then
    let out := withDesc m.op0 (opExt m.op0)
    clear m.op0 m.op1 && clear m.op0 m.op2 && clear out m.op0 && clear out m.op1 && clear out m.op2
  else if o.opcode = ocTurn then clear m.op0 m.op1
  else true

/-- The views of a macro-op on physical core `p`: the status of the first fault. -/
def State.viewFault (s : State) (plan : Plan) (o : RawOp) (n : Nat) : Option Nat :=
  let bad := o.views.find? fun v =>
    match plan.tiles[opDesc v.w]? with
    | none => true
    | some d =>
      let p := s.coreFor plan.twin (o.viewCore plan v n)
      !(viewOf d v.w p 0).sound (s.spaceLimit plan p d)
  if bad.isSome then some 0x0106
  else if o.views.any fun v => v.wr && (plan.tiles[opDesc v.w]?).any fun d => (viewOf d v.w 0 0).hitsStepBlock then some 0x0304
  else none

/-- The variant slot of an update macro-op against its tensor (R181). -/
def State.variantFault (s : State) (plan : Plan) (o : RawOp) : Option Nat :=
  if !isUpdate o.opcode then none
  else
    match (plan.tiles[opDesc o.op.op0]?).bind fun d => s.tensor? d.tensor with
    | none => none
    | some t =>
      if t.nslots = 1 && o.op.variantSlot ≠ 0 then some 0x0106
      else if t.nslots ≤ o.op.variantSlot.toNat then some 0x0304
      else none

def State.checkOperands (s : State) (plan : Plan) (u : Use) : Chk Unit := do
  let o := u.op
  let m := o.op
  need (m.rnd.toNat < 2) 0x0107 u.place
  need (shapesOk plan o plan.tiles[opDesc m.op0]? plan.tiles[opDesc m.op1]? plan.tiles[opDesc m.op2]?) 0x0106 u.place
  checkAll (fun n =>
    match s.viewFault plan o n with
    | some status => refuse status u.place
    | none => need (apart plan o (s.coreFor plan.twin n)) 0x0106 u.place) (plan.coresOf u.role u.block)
  match s.variantFault plan o with
  | some status => refuse status u.place
  | none => .ok ()

/-- The tensors that the macro-ops of update program `i` update. -/
def State.tensorsOf (s : State) (plan : Plan) (i : Nat) : List (Option Tensor) :=
  (plan.uses.filter fun u => isUpdate u.op.opcode && opExt u.op.op.op1 = i).map fun u =>
    (plan.tiles[opDesc u.op.op.op0]?).bind fun d => s.tensor? d.tensor

/-- A BF16 parameter of a variant tensor (R166). -/
def Tensor.bf16Variant (t : Tensor) : Bool := t.fmt = 1 && 1 < t.nslots

/-- The rounding mode of an update program (R120, R152, R166): mode 2 needs a macro-op that runs the program on a BF16 variant parameter. -/
def State.checkUpdRnd (s : State) (plan : Plan) (e : UProg × Nat) : Chk Unit :=
  let u := e.1
  let stw := (u.instrs.zipIdx.find? fun x => x.1.uop = 0x20).map fun x => x.2
  need (u.rnd < 2 || (u.rnd = 2 && 1 < plan.level && plan.profile = 1 && stw.isSome &&
      !(s.tensorsOf plan e.2).isEmpty && (s.tensorsOf plan e.2).all fun t => t.any Tensor.bf16Variant))
    0x0107 { sec := secUpdate }

def State.check4 (s : State) (plan : Plan) : Chk Unit := do
  checkAll (s.checkOperands plan) plan.uses
  checkAll (s.checkUpdRnd plan) plan.updates.zipIdx

/-! ## Check 5: vector and update programs -/

/-- The cost of a vector operation; none for a VOP outside R141. -/
def vopCost (v : Nat) : Option Nat :=
  if v = 0 then some 0
  else if v = 6 then some 2
  else if v = 0x0B || v = 0x0D then some 4
  else if (1 ≤ v && v ≤ 5) || (8 ≤ v && v ≤ 0x15) || (0x18 ≤ v && v ≤ 0x21) || v = 0x3F then some 1
  else if 0x28 ≤ v && v ≤ 0x30 then some 4
  else if v = 0x31 || v = 0x32 then some 8
  else none

/-- The index of the first element that satisfies `f`. -/
def firstIdx {α : Type} (f : α → Bool) (l : List α) : Option Nat := (l.zipIdx.find? fun e => f e.1).map fun e => e.2

/-- A fault of a vector program alone: its instruction. Of a program that is too long, or that has not one ST, R141 does not say which one the detail
names (log entry 155): 256, the second ST, the last instruction. -/
def vectorFault (level : Nat) (p : List VInstr) : Option Nat :=
  if 256 < p.length then some 256
  else
    match firstIdx (fun i => (vopCost i.vop).isNone || (level = 1 && i.vop = 6)) p with
    | some i => some i
    | none =>
      match (p.zipIdx.filter fun e => e.1.vop = 0x3F).map fun e => e.2 with
      | [_] => none
      | _ :: second :: _ => some second
      | [] => some (p.length - 1)

/-- A fault of a vector program's use by a VPROG: the instruction, or all ones where no single one fails. -/
def vprogFault (plan : Plan) (u : Use) : Option Nat :=
  let m := u.op.op
  match plan.vectors[opExt m.op0]? with
  | none => none
  | some p =>
    let missing := firstIdx (fun i => (i.vop = 1 && noOperand m.op1) || (i.vop = 2 && noOperand m.op2)) p
    let seeded := ((plan.stream u.role u.block u.strand).take u.idx).any fun o => o.opcode = ocSeed
    let unseeded := if seeded then none else firstIdx (fun i => i.vop = 6) p
    let tall := (plan.tiles[opDesc m.op0]?).any fun d => d.sfmt ≠ 0 && d.dir && 128 * 1024 < d.blockSize * d.cols * 4
    match missing, unseeded with
    | some i, _ => some i
    | none, some i => some i
    | none, none => if tall then some 0xFF else none

/-- Accumulator stores, loads and stores of an update program. -/
def UProg.has (u : UProg) (uop : Nat) : Bool := u.instrs.any fun i => i.uop = uop

/-- UOPs of R173 and the kinds that may hold them: 0 both, 1 pass A, 2 pass B. -/
def uopKind (v : Nat) : Option Nat :=
  if v ≤ 6 || (8 ≤ v && v ≤ 0x16) then some 0
  else if v = 0x18 || v = 0x19 then some 1
  else if v = 7 || v = 0x20 || v = 0x21 then some 2
  else none

/-- Instructions that send a value to accumulator `a`. -/
def UProg.accs (u : UProg) (a : Nat) : List Nat :=
  (u.instrs.zipIdx.filter fun e => (e.1.uop = 0x18 || e.1.uop = 0x19) && natBits e.1.imm.toNat 1 0 = a).map fun e => e.2

/-- Stores of state `k` (or of the parameter for 4). -/
def UProg.stores (u : UProg) (k : Nat) : List Nat :=
  (u.instrs.zipIdx.filter fun e =>
    if k = 4 then e.1.uop = 0x20 else e.1.uop = 0x21 && natBits e.1.imm.toNat 1 0 = k).map fun e => e.2

/-- States a program loads. -/
def UProg.loads (u : UProg) (k : Nat) : Bool := u.instrs.any fun i => i.uop = 3 && natBits i.imm.toNat 1 0 = k

/-- A fault of an update program alone (R175): its instruction. Which index the detail names where no single instruction fails is the model's
choice (log entry 118): 0 for a header field out of range, the last one for a missing store or accumulator. -/
def UProg.fault (u : UProg) : Option Nat :=
  let last := u.nops - 1
  if u.nops = 0 || 32 < u.nops || 1 < u.kind || (if u.kind = 0 then u.nacc = 0 || 4 < u.nacc else u.nacc ≠ 0) then some 0
  else
    let wrong := fun (i : UInstr) =>
      match uopKind i.uop with
      | none => true
      | some 0 => false
      | some 1 => u.kind ≠ 0 || u.nacc ≤ natBits i.imm.toNat 1 0
      | some _ => u.kind ≠ 1
    match firstIdx wrong u.instrs with
    | some i => some i
    | none =>
      let twice := (([0, 1, 2, 3, 4].flatMap fun k => (u.stores k).drop 1) ++
        ([0, 1, 2, 3].flatMap fun a => (u.accs a).drop 1)).foldl
          (fun (m : Option Nat) i => some (match m with
            | none => i
            | some j => min i j)) none
      match twice with
      | some i => some i
      | none =>
        if u.kind = 0 && (List.range u.nacc).any fun a => (u.accs a).isEmpty then some last
        else if u.kind = 1 && [0, 1, 2, 3, 4].all fun k => (u.stores k).isEmpty then some last
        else none

/-- b of R175 in units of 1/(8 × COLS) byte: the bytes that the program moves per element. -/
def UProg.moved (u : UProg) (t : Tensor) (sparse : Bool) : Nat :=
  let elem := fmtBits t.fmt * t.cols
  let grad := fmtBits t.gradFmt * t.cols
  (if u.has 1 then elem else 0) + (if u.has 0x20 then elem else 0) + (if u.has 2 then grad else 0) +
    ([0, 1, 2, 3].map fun k => (if u.loads k then 32 * t.cols else 0) + (if (u.stores k).isEmpty then 0 else 32 * t.cols)).sum +
    (if sparse then 96 else 0)

/-- NOPS is at most floor(1.468 × b). Every UPDS is priced as for a table, on a dense tensor too, where R175 is silent (log entry 155). -/
def UProg.fast (u : UProg) (t : Tensor) (sparse : Bool) : Bool := u.nops * (8000 * t.cols) ≤ 1468 * u.moved t sparse

/-- A fault of an update program's use by a macro-op (R165, R166, R171, R175): the instruction, 0xFF where none fails alone. -/
def State.updateFault (s : State) (plan : Plan) (u : Use) : Option Nat :=
  let m := u.op.op
  let oc := u.op.opcode
  match plan.updates[opExt m.op1]?, (plan.tiles[opDesc m.op0]?).bind fun d => s.tensor? d.tensor with
  | some g, some t =>
    if g.kind ≠ (if oc = ocUpda then 0 else 1) then some 0xFF
    else
      let cols := ((plan.tiles[opDesc m.op1]?).map fun d => d.cols).getD 0
      let bad := fun (i : UInstr) =>
        ((i.uop = 3 || i.uop = 0x21) && t.states ≤ natBits i.imm.toNat 1 0) ||
          (i.uop = 7 && cols ≤ natBits i.imm.toNat 1 0) ||
          (i.uop = 0x20 && t.fmt ≠ 0 && !(plan.profile = 1 && t.bf16Variant))
      match firstIdx bad g.instrs with
      | some i => some i
      | none => if g.fast t (oc = ocUpds) then none else some 0xFF
  | _, _ => none

def programPlace (u : Use) (instr prog : Nat) : PlanPlace := { u.place with variant := instr, frame := prog }

def State.check5 (s : State) (plan : Plan) : Chk Unit := do
  checkAll (fun e =>
    match vectorFault plan.level e.1 with
    | some i => refuse 0x0110 { sec := secVector, block := e.2, op := i }
    | none => .ok ()) plan.vectors.zipIdx
  checkAll (fun e =>
    match e.1.fault with
    | some i => refuse 0x010F { sec := secUpdate, block := e.2, op := i }
    | none => .ok ()) plan.updates.zipIdx
  checkAll (fun u =>
    if u.op.opcode = ocVprog then
      match vprogFault plan u with
      | some i => refuse 0x0110 (programPlace u i (opExt u.op.op.op0))
      | none => .ok ()
    else if isUpdate u.op.opcode then
      match s.updateFault plan u with
      | some i => refuse 0x010F (programPlace u i (opExt u.op.op.op1))
      | none => .ok ()
    else .ok ()) plan.uses

/-! ## Check 6: contour records (R150) -/

/-- Rising without repeats. -/
def rising : List Nat → Bool
  | a :: b :: t => decide (a < b) && rising (b :: t)
  | _ => true

/-- A strand's macro-ops of one frame of a variant, with their stream indices. -/
def Plan.frameOps (p : Plan) (v : Variant) (role block strand f : Nat) : List (RawOp × Nat) :=
  let cuts := v.cutsOf role block strand
  let before := ((cuts.filter fun c => c.1 < f).map fun c => c.2).sum
  let n := ((cuts.filter fun c => c.1 = f).map fun c => c.2).sum
  (((p.stream role block strand).zipIdx).drop before).take n

/-- A cut entry names a strand of the plan and a frame of the variant. -/
def Plan.cutOk (p : Plan) (v : Variant) (c : Cut) : Bool :=
  c.frame < v.frames &&
    ((p.code[c.role]?).bind fun r => r.blocks[c.block]?).any fun b => (b.strands.getD c.strand none).isSome

/-- The strand's cuts rise in frame order and give its whole stream. -/
def Plan.strandOk (p : Plan) (v : Variant) (rb : Nat × Nat) (t : Nat) : Bool :=
  let cuts := v.cutsOf rb.1 rb.2 t
  rising (cuts.map fun c => c.1) && (cuts.map fun c => c.2).sum = p.streamLen rb.1 rb.2 t

/-- The macro-op needs a slot of its circuit in its frame. -/
def needsSlot (o : RawOp) : Bool :=
  o.opcode = ocSend || o.opcode = ocRecv || (o.opcode = ocCred && !opLocal o.op)

def checkVariant (p : Plan) (v : Variant) : Chk Unit := do
  let at_ : PlanPlace := { sec := secContours, variant := v.contour }
  need (v.contour ≤ 3 && 1 ≤ v.frames && v.frames ≤ 65535) 0x010C at_
  need (v.cuts.all (p.cutOk v)) 0x010C at_
  need (p.blockList.all fun rb => (List.range 64).all (p.strandOk v rb)) 0x010C at_
  need (v.slots.all fun e => e.frame < v.frames && p.circuits.any fun c => c.id = e.circuit) 0x010C at_
  need (p.circuits.all fun c => c.mode ≠ 1 || (List.range v.frames).all fun f =>
    (v.slots.filter fun e => e.circuit = c.id && e.frame = f).length ≤ 1) 0x010C at_
  checkAll (fun rb => checkAll (fun t => checkAll (fun f => checkAll (fun e =>
      need (!needsSlot e.1 || v.slots.any fun x => x.circuit = opExt e.1.op.op0 && x.frame = f) 0x010C
        { sec := secContours, variant := v.contour, block := rb.2, strand := t, op := e.2, frame := f })
      (p.frameOps v rb.1 rb.2 t f)) ((v.cutsOf rb.1 rb.2 t).map fun c => c.1)) (List.range 64)) p.blockList

def check6 (p : Plan) : Chk Unit := do
  let cs := p.variants.map fun v => v.contour
    -- the first record that does not follow its predecessor, else the variant that is missing
  let bad := (cs.zip (cs.drop 1)).find? fun e => decide (e.2 ≤ e.1)
  let missing := [0, 3].find? fun c => !cs.contains c
  need (bad.isNone && missing.isNone) 0x010C { sec := secContours, variant := (bad.map fun e => e.2).getD (missing.getD 0) }
  checkAll (checkVariant p) p.variants

/-! ## Check 9: code size (R79) -/

/-- Native macro-ops of a strand: its stream, which may be empty, and its FRAME_ENDs in the variant that has most (R150). -/
def Plan.nativeLen (p : Plan) (role block strand : Nat) : Nat :=
  (p.stream role block strand).length + (p.variants.map fun v => (v.cutsOf role block strand).length).foldl max 0

/-- Code lines of a block: each strand begins on a line (R79). -/
def Plan.blockLines (p : Plan) (role block : Nat) : Nat :=
  ((List.range 64).map fun t => ceilDiv (p.nativeLen role block t) 64).sum

/-- Native bytes of core-table entry `n`. -/
def Plan.nativeBytes (p : Plan) (role n : Nat) : Nat :=
  match (p.code[role]?).bind fun r => r.cores.getD n none with
  | some b => 2048 * p.blockLines role b
  | none => 0

/-- Native bytes of a plan on physical core `p`: both cores of a pair hold the pair's code. -/
def State.codeBytes (s : State) (plan : Plan) (role p : Nat) : Nat :=
  (((List.range 120).filter fun n => plan.nativeBytes role n ≠ 0).map fun n =>
    let k := s.coreFor plan.twin n
    if k = p || (plan.twin && k + 1 = p) then plan.nativeBytes role n else 0).sum

/-- Native bytes that the resident plans of other slots hold on a physical core; a body shared by two slots counts once. -/
def State.residentBytes (s : State) (slot p : Nat) : Nat :=
  let others := (s.job.slots.filter fun e => e.1 ≠ slot).filterMap fun e => e.2.plan
  let distinct := others.foldl (fun (l : List Resident) r => if l.any fun q => q.plan.bodyHash = r.plan.bodyHash then l else l ++ [r]) []
  (distinct.map fun r => s.codeBytes r.plan r.role p).sum

/-- The role's code and that of the plans resident in other slots fit into the 16 MiB of every core that it needs (R79, R164). -/
def State.codeFits (s : State) (plan : Plan) (role slot : Nat) : Bool :=
  ((List.range 120).filter fun n => plan.nativeBytes role n ≠ 0).all fun n =>
    let p := s.coreFor plan.twin n
    (if plan.twin then [p, p + 1] else [p]).all fun c => s.codeBytes plan role c + s.residentBytes slot c ≤ 16 * 2 ^ 20

def State.check9 (s : State) (plan : Plan) (role slot : Nat) : Chk Unit := need (s.codeFits plan role slot) 0x0302

/-- Check 10: TWIN needs the Twin Mode licence. -/
def State.check10 (s : State) (plan : Plan) : Chk Unit := need (!plan.twin || s.licensed 3) 0x0501

end Sys2Proof.Machine
end

