-- ==== Sys2Proof/Machine/Flags.lean ====
section
/-! DEFINITION. Writing converted tiles: conversion with block scales (R113 to R116), the sticky overflow flags, saturation counts and
their events (R93, R112, R114, R118), and the level-1 replay (R185, R186). -/
namespace Sys2Proof.Machine

/-- What conversions of one macro-op raised: the sticky flag, saturated elements with the first saturating row, and the
first clamped block as its row and column of the scale plane. -/
structure Raised where
  overflowed : Bool := false
  sats : Nat := 0
  satRow : Option Nat := none
  clamp : Option (Nat × Nat) := none
  deriving DecidableEq, Repr

def Raised.join (a b : Raised) : Raised :=
  { overflowed := a.overflowed || b.overflowed, sats := a.sats + b.sats
    satRow := match a.satRow, b.satRow with
      | some x, some y => some (min x y)
      | x, y => x.or y
    clamp := a.clamp.or b.clamp }

/-- What element conversions of row `r` raised. -/
def raisedBy (r : Nat) (cs : List Conv) : Raised :=
  let n := (cs.filter fun c => c.sat).length
  { overflowed := cs.any fun c => c.overflowed, sats := n, satRow := if n = 0 then none else some r }

/-- Convert one block with a scale of its own (R113, R114): its scale, whether it is clamped, its elements. -/
def convertBlock (fmt sfmt mode : Nat) (xs : List Val) : Nat × Bool × List Conv :=
  let (code, clamped) := chooseScale fmt sfmt xs
  if xs.any fun v => !v.isFin then (code, false, xs.map fun _ => { code := 0, overflowed := true })
  else (code, clamped, xs.map fun v => convert fmt mode 0 (divScale (decodeScale sfmt code) v))

/-- Columns of a list of rows, for `n` columns. -/
def columns {α : Type} [Inhabited α] (n : Nat) (rows : List (List α)) : List (List α) :=
  (List.range n).map fun c => rows.map fun r => r.getD c default

/-- Convert a tile of exact values into a descriptor's format and scales. -/
def convertTile (d : TileDesc) (mode : Nat) (vals : List (List Val)) : Tile × Raised :=
  if d.sfmt = 0 then
    let cs := vals.map fun row => row.map (convert d.fmt mode 0)
    ({ codes := cs.map fun row => row.map fun c => c.code, scales := [] },
      (cs.zipIdx.map fun e => raisedBy e.2 e.1).foldl Raised.join {})
  else if !d.dir then
    let rows := vals.map fun row => (chunks d.blockSize (row.length + 1) row).map (convertBlock d.fmt d.sfmt mode)
    ({ codes := rows.map fun r => r.flatMap fun b => b.2.2.map fun c => c.code
       scales := rows.map fun r => r.map fun b => b.1 },
      (rows.zipIdx.map fun r =>
        { raisedBy r.2 (r.1.flatMap fun b => b.2.2) with
          clamp := (r.1.zipIdx.find? fun b => b.1.2.1).map fun b => (r.2, b.2) }).foldl Raised.join {})
  else
    let groups := (chunks d.blockSize (vals.length + 1) vals).map fun g =>
      (List.range d.cols).map fun c => convertBlock d.fmt d.sfmt mode (g.map fun r => r.getD c (.fin false 0 0))
    let codes := groups.zipIdx.flatMap fun g =>
      (List.range (min d.blockSize (vals.length - g.2 * d.blockSize))).map fun i => g.1.map fun b => b.2.2.getD i { code := 0 }
    ({ codes := codes.map fun r => r.map fun c => c.code
       scales := groups.map fun g => g.map fun b => b.1 },
      { (codes.zipIdx.map fun e => raisedBy e.2 e.1).foldl Raised.join {} with
        clamp := (groups.zipIdx.filterMap fun g => (g.1.zipIdx.find? fun b => b.1.2.1).map fun b => (g.2, b.2)).head? })

/-! ## Flags and counts (R118) -/

/-- The DETAIL of SCALE_CLAMP: row of the scale plane in [15:0], column in [31:16] (log entry 23). -/
def clampDetail (c : Nat × Nat) : Nat := c.1 + 2 ^ 16 * c.2

/-- What a core's macro-op raised: the sticky flag, the count, and each event once. -/
def State.coreRaised (p : Nat) (r : Raised) (s : State) : State :=
  let s := s.onCore p fun c => { c with overflow := c.overflow || r.overflowed, saturations := satAdd c.saturations r.sats }
  let s := match r.satRow with
    | some row => s.note .formatSaturate (srcCore p) row
    | none => s
  match r.clamp with
  | some c => s.note .scaleClamp (srcCore p) (clampDetail c)
  | none => s

/-- What a hub's update engine or reduction raised. -/
def State.hubRaised (h : Nat) (r : Raised) (s : State) : State :=
  let s := s.onHub h fun v => { v with overflow := v.overflow || r.overflowed, saturations := satAdd v.saturations r.sats }
  let s := match r.satRow with
    | some row => s.note .formatSaturate (srcHub h) row
    | none => s
  match r.clamp with
  | some c => s.note .scaleClamp (srcHub h) (clampDetail c)
  | none => s

/-! ## Decoding into the working format (R112, R124) -/

/-- An unscaled integer tile is read as INT32; every other tile as FP32. -/
def TileDesc.isInt (d : TileDesc) : Bool := !isFloatFmt d.fmt && d.sfmt = 0

/-- A decoded element as a 32-bit register, and whether its decoding overflowed (R112). -/
def toRegister (int : Bool) (v : Val) : Nat × Bool :=
  if int then (unsigned 32 (v.scaledInt 0), false)
  else
    let w := rne32 v
    (w, v.isFin && fpBad w)

/-- A register's value as it is written to a tile: INT32 for an unscaled integer format, else FP32 (R124, R141). -/
def fromRegister (int : Bool) (w : Nat) : Val := if int then .ofInt (signed 32 w) else rd32 w

/-- A view's elements as registers; the flag says that some decoding overflowed. -/
def State.registers (s : State) (v : View) : List (List Nat) × Bool :=
  let rows := (s.values v).map fun row => row.map (toRegister v.d.isInt)
  (rows.map fun r => r.map fun e => e.1, rows.any fun r => r.any fun e => e.2)

/-! ## Level-1 replay (R185, R186) -/

/-- The wider format of the same width. -/
def replayFmt (fmt : Nat) : Option Nat := if fmt = 2 then some 1 else if fmt = 3 then some 4 else none

/-- A macro-op that R186 bars from reading a replayed tile. -/
def barsReplay (oc : Nat) : Bool := oc = ocSend || oc = ocPut || oc = ocStore || oc = ocScatter || oc = ocTurn

/-- The write through view `v` of descriptor `i` on core-table entry `n` is replay-eligible (R186). -/
def State.replayable (s : State) (plan : Plan) (role n i : Nat) (v : View) : Bool :=
  plan.level = 1 && v.d.space = spTile && (replayFmt v.d.fmt).isSome &&
    plan.uses.all fun u => (plan.coresOf u.role u.block).all fun m => u.op.views.all fun x =>
      match plan.tiles[opDesc x.w]? with
      | none => true
      | some d =>
        let y := viewOf d x.w (s.coreFor plan.twin (u.op.viewCore plan x m)) 0
        u.role ≠ role || !y.meets v ||
          (m = n && !x.remote && opDesc x.w = i && !(x.rd && barsReplay u.op.opcode))

/-- Write converted values through a view on core `p`; a replay-eligible write that would set the sticky flag is written in the replay
format instead (R185). `replay` names the descriptor where the write is eligible. -/
def State.writeValues (p : Nat) (v : View) (mode : Nat) (vals : List (List Val)) (replay : Option Nat) (s : State) : State × Raised :=
  let (t, r) := convertTile v.d mode vals
  match replay, replayFmt v.d.fmt with
  | some i, some f =>
    if r.overflowed then
      let w : View := { v with d := { v.d with fmt := f } }
      let (t2, r2) := convertTile w.d mode vals
      let s := s.onCore p fun c => { c with overrides := c.overrides ++ [(i, f)] }
      ((s.note .formatReplay (srcCore p) i).putTile w t2, r2)
    else (s.putTile v t, r)
  | _, _ => (s.putTile v t, r)

end Sys2Proof.Machine
end

