-- ==== Sys2Proof/Machine/PlanProof.lean ====
section
/-! DEFINITION. The loader's checks 7 and 8: the token graph of a frame and its four rules (R155, R144, R145), and the hazards
between unordered macro-ops (R156, R66, R77). -/
namespace Sys2Proof.Machine

/-! ## Nodes -/

/-- A macro-op of a frame on the module at a stage index: where it runs and its place in its strand's part of the frame. -/
structure Node where
  stage : Nat
  role : Nat
  block : Nat
  core : Nat
  strand : Nat
  idx : Nat
  op : RawOp
  deriving DecidableEq, Repr

def Node.place (n : Node) (variant frame : Nat) : PlanPlace :=
  { sec := secCode, variant, block := n.block, strand := n.strand, op := n.idx, frame }

/-- The stage indices of a plan: those of its ROLEMAP, or one. -/
def Plan.stages (p : Plan) : List Nat := if p.roles = 1 then [0] else List.range p.roleMap.length

def Plan.roleAt (p : Plan) (i : Nat) : Nat := if p.roles = 1 then 0 else p.roleMap.getD i 0

/-- The macro-ops that core-table entry `n` has in frame `f` on the module at stage `i`, strand by strand. -/
def Plan.coreNodes (p : Plan) (v : Variant) (f i n : Nat) : List Node :=
  let r := p.roleAt i
  match (p.code[r]?).bind fun x => x.cores.getD n none with
  | none => []
  | some b =>
    (List.range 64).flatMap fun t =>
      (p.frameOps v r b t f).map fun e => { stage := i, role := r, block := b, core := n, strand := t, idx := e.2, op := e.1 }

/-- The macro-ops of frame `f` on every module of a line or ring of stages. -/
def Plan.nodes (p : Plan) (v : Variant) (f : Nat) : List Node :=
  p.stages.flatMap fun i => (List.range 120).flatMap fun n => p.coreNodes v f i n

/-- Two nodes of one strand. -/
def Node.sameStrand (a b : Node) : Bool := a.stage = b.stage && a.core = b.core && a.strand = b.strand

/-! ## Circuits between stages (R155) -/

/-- The gazetteer in force gives ROLE_AXIS a closed ring of exactly COUNT modules. -/
def State.roleRing (s : State) (p : Plan) : Bool :=
  match s.topo.gaz with
  | none => false
  | some g => !g.rings.isLine p.roleAxis && g.rings.size p.roleAxis = p.roleMap.length

/-- The stage `hops` away from stage `i`. -/
def State.stageAway (s : State) (p : Plan) (i hops : Nat) (plus : Bool) : Option Nat :=
  let n := p.roleMap.length
  if s.roleRing p then some (if plus then (i + hops) % n else (i + n - hops % n) % n)
  else if plus then (if i + hops < n then some (i + hops) else none)
  else if hops ≤ i then some (i - hops)
  else none

/-- The stage of a circuit's consumer; none where the circuit ends outside the stages. -/
def State.farStage (s : State) (p : Plan) (c : Circuit) (i : Nat) : Option Nat :=
  if p.roles = 1 || c.bearing / 2 ≠ p.roleAxis then some i else s.stageAway p i c.hops (c.bearing % 2 = 0)

/-- A circuit of the plan has a consumer for the node: in CRED mode, a partner on either side. -/
def State.hasConsumer (s : State) (p : Plan) (n : Node) (c : Circuit) : Bool :=
  if c.mode = 2 then
    p.roles = 1 || c.bearing / 2 ≠ p.roleAxis || (s.stageAway p n.stage c.hops true).isSome ||
      (s.stageAway p n.stage c.hops false).isSome
  else (s.farStage p c n.stage).isSome

/-- A RECV and every SEND of its frame at the other end of its circuit differ in no format, scale format, block size or direction (R107). -/
def State.checkEnds (s : State) (p : Plan) (v : Variant) (f : Nat) : Chk Unit :=
  let nodes := p.nodes v f
  checkAll (fun n =>
    match if n.op.opcode = ocRecv then p.circuitOf n.op.op else none with
    | none => .ok ()
    | some c =>
      let sends := nodes.filter fun x =>
        x.op.opcode = ocSend && opExt x.op.op.op0 = c.id && x.core = c.srcCore && s.farStage p c x.stage = some n.stage
      need (sends.all fun x =>
        match p.tiles[opDesc n.op.op.op0]?, p.tiles[opDesc x.op.op.op1]? with
        | some a, some b => a.copies b
        | _, _ => true) 0x0106 (n.place 0xFF 0xFFFF)) nodes

/-! ## Posts and waits -/

/-- The posts of a node: stage, core and queue they land in, and their number. -/
structure PostTo where
  stage : Nat
  core : Nat
  queue : Nat
  n : Nat
  deriving DecidableEq, Repr

/-- Where a node's post lands; the error is a fault of R144, R145 or a circuit end without a consumer. -/
def State.postOf (s : State) (p : Plan) (n : Node) : Option (Option PostTo) :=
  let m := n.op.op
  let count := m.postN.toNat
  let at_ := fun (st co : Nat) => if count = 0 then none else some { stage := st, core := co, queue := m.postQ.val, n := count : PostTo }
  if n.op.opcode = ocSend then
    match p.circuitOf m with
    | none => none
    | some c =>
      match s.farStage p c n.stage with
      | none => none
      | some far => if c.mode = 1 then (if count = 0 then some none else none) else some (at_ far c.dstCore)
  else if n.op.opcode = ocCred && !opLocal m then
    match p.circuitOf m with
    | none => none
    | some c => if s.hasConsumer p n c then some (at_ n.stage n.core) else none
  else if n.op.opcode = ocPut && count ≠ 0 then
    if tgtRel m.op2 && tgtCore m.op2 ≠ 127 then some (at_ n.stage (tgtCore m.op2)) else none
  else some (at_ n.stage n.core)

/-- The queue a node waits on: stage, core, queue and count. -/
def Node.wait (n : Node) : Option PostTo :=
  let m := n.op.op
  if m.waitN.toNat = 0 then none else some { stage := n.stage, core := n.core, queue := m.waitQ.val, n := m.waitN.toNat }

def PostTo.sameQueue (a b : PostTo) : Bool := a.stage = b.stage && a.core = b.core && a.queue = b.queue

/-! ## The graph

Nodes are numbered in the order of the list; a set of nodes is a number with one bit per node. -/

/-- A graph: for each node, the node that must issue before it, the nodes that must complete before it issues, and the nodes
that complete before it completes because they share its in-order unit. -/
structure Graph where
  nodes : List Node
  issue : List (List Nat)
  done : List (List Nat)
  unit : List (List Nat)
  deriving DecidableEq, Repr

def bitSet (l : List Nat) : Nat := l.foldl (fun m i => Nat.lor m (2 ^ i)) 0

def hasBit (m i : Nat) : Bool := m / 2 ^ i % 2 = 1

/-- The edges within strands: order of issue, FENCE, and the in-order units MX and VX. -/
def graphOf (nodes : List Node) : Graph :=
  let num := nodes.zipIdx
  let earlier := fun (e : Node × Nat) => (num.take e.2).filter fun x => x.1.sameStrand e.1
  { nodes
    issue := num.map fun e => ((earlier e).getLast?.map fun x => x.2).toList
    done := num.map fun e =>
      match (earlier e).getLast? with
      | some x => if x.1.op.opcode = ocFence || x.1.op.opcode = ocFrameEnd then (earlier e).map fun y => y.2 else []
      | none => []
    unit := num.map fun e =>
      if opUnit e.1.op.opcode = some .mx || opUnit e.1.op.opcode = some .vx then
        (((earlier e).filter fun x => opUnit x.1.op.opcode = opUnit e.1.op.opcode).getLast?.map fun x => x.2).toList
      else [] }

/-- Repeat `f` until nothing changes, at most `n` times. -/
def settle {α : Type} [DecidableEq α] (f : α → α) : Nat → α → α
  | 0, x => x
  | n + 1, x => if f x = x then x else settle f n (f x)

/-- For each node, the nodes it depends on, directly or through others. -/
def Graph.reach (g : Graph) : List Nat :=
  let preds := (g.issue.zip (g.done.zip g.unit)).map fun e => e.1 ++ e.2.1 ++ e.2.2
  settle (fun r => preds.map fun ps => ps.foldl (fun m y => Nat.lor m (Nat.lor (2 ^ y) (r.getD y 0))) 0)
    (g.nodes.length + 1) (g.nodes.map fun _ => 0)

/-- For each node, the nodes complete before it issues and those complete before it completes. -/
def Graph.order (g : Graph) : List (Nat × Nat) :=
  let preds := g.issue.zip (g.done.zip g.unit)
  settle (fun r => preds.map fun ps =>
      let full := fun (m y : Nat) => Nat.lor m (Nat.lor (2 ^ y) (r.getD y (0, 0)).2)
      let d := ps.2.1.foldl full (ps.1.foldl (fun m y => Nat.lor m (r.getD y (0, 0)).1) 0)
      (d, ps.2.2.foldl full d))
    (2 * g.nodes.length + 1) (g.nodes.map fun _ => (0, 0))

/-! ## The token rules of R155 -/

/-- One queue of one core with its waits and posts in the frame: node and count, waits in program order. -/
structure Queue where
  at_ : PostTo
  entry : Nat
  waits : List (Nat × Nat)
  posts : List (Nat × Nat)
  deriving DecidableEq, Repr

/-- The queues that a frame's macro-ops name. -/
def Plan.queues (p : Plan) (nodes : List Node) (posts : List (Option PostTo)) : List Queue :=
  let waits := nodes.map Node.wait
  let keys := ((waits ++ posts).filterMap id).foldl
    (fun (l : List PostTo) k => if l.any fun x => x.sameQueue k then l else l ++ [k]) []
  let pick := fun (k : PostTo) (l : List (Option PostTo)) =>
    l.zipIdx.filterMap fun e => e.1.bind fun x => if x.sameQueue k then some (e.2, x.n) else none
  keys.map fun k =>
    let role := p.code[p.roleAt k.stage]?
    let entry := match role.bind fun r => (r.cores.getD k.core none).map fun b => (r.tokens.getD b []).getD k.queue 0 with
      | some n => n
      | none => 0
    { at_ := k, entry, waits := pick k waits, posts := pick k posts }

/-- The tokens taken by the first `k` waits. -/
def Queue.taken (q : Queue) (k : Nat) : Nat := ((q.waits.take k).map fun w => w.2).sum

/-- Posters that do not depend on node `w`. -/
def Queue.free (q : Queue) (reach : List Nat) (w : Nat) : List (Nat × Nat) :=
  q.posts.filter fun y => y.1 ≠ w && !hasBit (reach.getD y.1 0) w

def total (l : List (Nat × Nat)) : Nat := (l.map fun e => e.2).sum

/-- The posters without which the `k`-th wait (from 0) falls short (R155). -/
def Queue.needs (q : Queue) (reach : List Nat) (k w : Nat) : List Nat :=
  let free := q.free reach w
  let n := q.taken (k + 1) - q.entry
  (free.filter fun y => total free - y.2 < n).map fun y => y.1

/-- Add the edges from needed posters to waits. -/
def Graph.withTokens (g : Graph) (qs : List Queue) (reach : List Nat) : Graph :=
  let edges := qs.flatMap fun q => q.waits.zipIdx.flatMap fun w => (q.needs reach w.2 w.1.1).map fun y => (w.1.1, y)
  { g with done := g.done.zipIdx.map fun e =>
      e.1 ++ ((edges.filter fun x => x.1 = e.2).map fun x => x.2).filter fun y => !e.1.contains y }

/-- The graph with its token edges, added until nothing changes. -/
def Graph.closed (g : Graph) (qs : List Queue) : Graph :=
  settle (fun h => h.withTokens qs h.reach) (g.nodes.length * g.nodes.length + 1) g

/-- The detail of a token fault: the queue in bytes 8 and 9. -/
def Node.queuePlace (n : Node) (variant queue : Nat) : PlanPlace := { n.place variant queue with frame := queue }

/-- Rules 1 to 4 for one queue. -/
def checkQueue (nodes : List Node) (reach : List Nat) (variant : Nat) (q : Queue) : Chk Unit := do
  let place := fun (i : Nat) =>
    match nodes[i]? with
    | some n => n.queuePlace variant q.at_.queue
    | none => { sec := secCode, variant, frame := q.at_.queue }
  let first := match q.waits.head? with
    | some w => w.1
    | none => (q.posts.map fun y => y.1).headD 0
  let strandOf := fun (i : Nat) => nodes[i]?.map fun n => n.strand
  checkAll (fun w => need (strandOf w.1 = strandOf first) 0x0109 (place w.1)) q.waits
  checkAll (fun w => need (q.taken (w.2 + 1) ≤ q.entry + total (q.free reach w.1.1)) 0x0109 (place w.1.1)) q.waits.zipIdx
  checkAll (fun w => need (q.entry + total (q.free reach w.1.1) ≤ 64 + q.taken w.2) 0x010A (place w.1.1)) q.waits.zipIdx
  need (q.entry + total q.posts ≤ 64 + q.taken q.waits.length) 0x010A (place first)
  need (total q.posts = q.taken q.waits.length) 0x0108 (place first)

/-- A frame's graph with its token edges, and the queues of the frame. -/
def State.frameGraph (s : State) (p : Plan) (v : Variant) (f : Nat) : Graph × List Queue :=
  let nodes := p.nodes v f
  let qs := p.queues nodes (nodes.map fun n => (s.postOf p n).getD none)
  ((graphOf nodes).closed qs, qs)

/-- Check 7 for one frame. -/
def State.checkTokens (s : State) (p : Plan) (v : Variant) (f : Nat) : Chk Graph :=
  let nodes := p.nodes v f
  let (g, qs) := s.frameGraph p v f
  let reach := g.reach
  do
    checkAll (fun n => need (s.postOf p n).isSome 0x0108 (n.queuePlace v.contour n.op.op.postQ.val)) nodes
    checkAll (checkQueue nodes reach v.contour) qs
    checkAll (fun e => need (!hasBit (reach.getD e.2 0) e.2) 0x0109 (e.1.queuePlace v.contour e.1.op.op.waitQ.val)) nodes.zipIdx
    return g

/-! ## Hazards (R156) -/

/-- A run of bytes that a node reads or writes on the module at a stage. -/
structure Foot where
  stage : Nat
  area : Area
  runs : List (Nat × Nat)
  wr : Bool
  deriving DecidableEq, Repr

/-- The local shard slot and the variant that place a SHEET view of a macro-op. Only update macro-ops name them; for the others the model takes
slot 0 of variant 0, which is its choice (log entry 120). -/
def RawOp.sheetOf (o : RawOp) : Nat × Nat :=
  if isUpdate o.opcode then (opExt o.op.op0, o.op.variantSlot.toNat) else (0, 0)

/-- The footprint of one operand view; none for a view on a module outside the graph (R155). A GET's source view counts as a read in the
graph of its own role, whichever rank it names. -/
def State.foot (s : State) (p : Plan) (n : Node) (v : OpView) : Option Foot :=
  (p.tiles[opDesc v.w]?).bind fun d =>
    let local_ := fun (stage core : Nat) =>
      let (slot, variant) := n.op.sheetOf
      let w := viewOf d v.w (s.coreFor p.twin core) 0 slot variant
      some { stage, area := w.area, runs := w.runs, wr := v.wr : Foot }
    if !v.remote then local_ n.stage n.core
    else if n.op.opcode = ocSend then
      (p.circuitOf n.op.op).bind fun c => (s.farStage p c n.stage).bind fun far => local_ far c.dstCore
    else if n.op.opcode = ocPut && (n.op.op.postN = 0 || !tgtRel n.op.op.op2) then none
    else local_ n.stage (if tgtCore n.op.op.op2 = 127 then n.core else tgtCore n.op.op.op2)

def State.feet (s : State) (p : Plan) (n : Node) : List Foot := n.op.views.filterMap (s.foot p n)

/-- Two footprints share a byte that one of them writes. -/
def Foot.clash (a b : Foot) : Bool :=
  a.stage = b.stage && a.area = b.area && (a.wr || b.wr) &&
    a.runs.any fun x => b.runs.any fun y => overlaps x.1 (x.1 + x.2) y.1 (y.1 + y.2)

/-- Two UPDBs or UPDSs whose parameter views share a byte: refused in one frame, ordered or not (R171, R187). -/
def State.sameElements (s : State) (p : Plan) (a b : Node) : Bool :=
  let stores := fun (n : Node) => n.op.opcode = ocUpdb || n.op.opcode = ocUpds
  stores a && stores b && (s.feet p a).any fun x => (s.feet p b).any fun y => x.wr && y.wr && x.clash y

/-- Check 8 for one frame, over its graph. -/
def State.checkHazards (s : State) (p : Plan) (v : Variant) (f : Nat) (g : Graph) : Chk Unit :=
  let ord := g.order
  let feet := (g.nodes.map (s.feet p)).zipIdx
  let before := fun (x y : Nat) => hasBit (ord.getD y (0, 0)).2 x
  checkAll (fun a =>
    let same := fun (b : Nat) =>
      match g.nodes[a.2]?, g.nodes[b]? with
      | some x, some y => s.sameElements p x y
      | _, _ => false
    let bad := (feet.drop (a.2 + 1)).find? fun b =>
      (!before a.2 b.2 && !before b.2 a.2 && a.1.any fun x => b.1.any fun y => x.clash y) || same b.2
    match bad with
    | none => .ok ()
    | some b =>
      match g.nodes[b.2]? with
      | some n => refuse 0x010B (n.place v.contour f)
      | none => refuse 0x010B) feet

/-! ## Checks 7 and 8 over all variants and frames -/

/-- Check every frame of every variant. -/
def everyFrame (p : Plan) (f : Variant → Nat → Chk Unit) : Chk Unit :=
  checkAll (fun v => checkAll (f v) (List.range v.frames)) p.variants

/-- The formats at the two ends of RECV circuits, a part of check 4 (R107). -/
def State.checkCopies (s : State) (p : Plan) : Chk Unit := everyFrame p (s.checkEnds p)

/-- No entry count is above 64, also of a queue that no macro-op names (R67, R155 rule 3). -/
def checkEntries (p : Plan) : Chk Unit :=
  checkAll (fun rb => checkAll (fun e => need (e.1 ≤ 64) 0x010A { sec := secTokens, block := rb.2, frame := e.2 })
    (((p.code[rb.1]?).map fun r => r.tokens.getD rb.2 []).getD []).zipIdx) p.blockList

def State.check7 (s : State) (p : Plan) : Chk Unit := do
  everyFrame p fun v f => do
    let _ ← s.checkTokens p v f
    return ()
  checkEntries p

def State.check8 (s : State) (p : Plan) : Chk Unit :=
  everyFrame p fun v f => s.checkHazards p v f (s.frameGraph p v f).1

end Sys2Proof.Machine
end

