-- ==== Sys2Proof/Machine/Issue.lean ====
section
/-! DEFINITION. The sequencer of a core: where a macro-op issues, the conditions of issue (R59, R60), the instruction cache (R79 to
R83), tokens (R64 to R68), fences (R61), flights (R56, R57, R69), and what a failed check does (R95, R197, R360 to R363). -/
namespace Sys2Proof.Machine

/-! ## Seats -/

/-- Where a macro-op issues: the physical core, the entry of the plan's core table, the resident plan and its slot, the code block,
and whether the core runs in token mode. -/
structure Seat where
  p : Nat
  n : Nat
  slot : Nat
  r : Resident
  variant : Option Variant
  block : Nat
  token : Bool
  deriving DecidableEq, Repr

/-- A SCOREBOARD_RUN is in progress (R409). -/
def State.scoring (s : State) : Bool := s.job.score.isSome

/-- The seat of core-table entry `n` in the scoreboard run, while the core is in scoreboard mode. -/
def State.scoreSeat (s : State) (n : Nat) : Option Seat :=
  if s.scoring then
    (s.resident 4).bind fun r => ((r.blockOf n).map fun b =>
      { p := s.coreFor r.plan.twin n, n, slot := 4, r, variant := none, block := b, token := false }).filter fun q : Seat => (s.core q.p).scoreboard
  else none

/-- The seat of core-table entry `n`: of the scoreboard run where it has the core, else of the plan that runs in the frame (R59, R72). -/
def State.seat (s : State) (n : Nat) : Option Seat :=
  match s.scoreSeat n, s.job.running, s.runningPlan with
  | some q, _, _ => some q
  | none, some d, some (r, v, _) => (r.blockOf n).map fun b =>
      { p := s.coreFor r.plan.twin n, n, slot := d.slot, r, variant := some v, block := b, token := true }
  | none, _, _ => none

def frameEndOp : RawOp := { opcode := ocFrameEnd, op := {} }

/-- A strand's native code: its stream with a FRAME_END after each cut of the variant (R79, R150). -/
def Seat.native (q : Seat) (t : Nat) : List RawOp :=
  let ops := q.r.plan.stream q.r.role q.block t
  match q.variant with
  | none => ops
  | some v =>
    ((v.cutsOf q.r.role q.block t).foldl
      (fun (a : List RawOp × List RawOp) c => (a.1 ++ a.2.take c.2 ++ [frameEndOp], a.2.drop c.2)) ([], ops)).1

/-- The code line of a strand's macro-op at `pc` (R79). -/
def Seat.line (q : Seat) (t pc : Nat) : Nat := Tab.get 0 (64 * q.n + t) q.r.lines + pc / 64

/-- The view of an operand field at a seat. -/
def State.seatView (s : State) (q : Seat) (w : BitVec 64) (shard : Nat := 0) (variant : Nat := 0) : Option View :=
  if noOperand w then none else s.view? q.p q.slot q.r.plan w shard variant

/-! ## The instruction cache -/

/-- Set of a line (R80). -/
def lineSet (l : Nat) : Nat := l % 64

/-- Line `l` is used: most recent, and used in this frame. -/
def Core.useLine (l : Nat) (c : Core) : Core :=
  { c with lines := l :: c.lines.filter fun x => x ≠ l, used := if c.used.contains l then c.used else l :: c.used }

/-- Remove the last element that satisfies `p`. -/
def dropLast {α : Type} (p : α → Bool) (l : List α) : List α := (dropFirst p l.reverse).reverse

/-- A free refill slot takes the line that has waited longest (R81). -/
def Core.nextRefill (c : Core) : Core :=
  match c.wanted with
  | [] => c
  | e :: t =>
    if 4 ≤ c.refills.length then c
    else { c with refills := c.refills ++ [e.1], wanted := t, preloads := if e.2 then e.1 :: c.preloads else c.preloads }

/-- Bring line `l` into the cache: the least recently used line of a full set gives way; a preload never evicts a line used in
the frame (R80, R82). -/
def Core.fill (l : Nat) (c : Core) : Core :=
  let preload := c.preloads.contains l
  let victim := fun (x : Nat) => lineSet x = lineSet l && !(preload && c.used.contains x)
  let full := 4 ≤ (c.lines.filter fun x => lineSet x = lineSet l).length
  let c := { c with refills := c.refills.filter fun x => x ≠ l, preloads := c.preloads.filter fun x => x ≠ l }
  Core.nextRefill
    (if !full then { c with lines := l :: c.lines }
     else if c.lines.any victim then { c with lines := l :: dropLast victim c.lines }
     else c)

/-- Request a line: at most four refills are outstanding, further ones wait for a slot, and a miss on a line under way or waiting joins it
(R81). -/
def Core.request (l : Nat) (preload : Bool) (c : Core) : Core :=
  if c.lines.contains l then c
  else if c.refills.contains l then if preload then c else { c with preloads := c.preloads.filter fun x => x ≠ l }
  else if c.wanted.any fun e => e.1 = l then
    if preload then c else { c with wanted := c.wanted.map fun e => if e.1 = l then (l, false) else e }
  else Core.nextRefill { c with wanted := c.wanted ++ [(l, preload)] }

/-! ## Code lines -/

/-- The core holds and asks for no line of a plan any more (R80). -/
def Core.dropHome (home : Nat) (c : Core) : Core :=
  let other := fun (l : Nat) => decide (l / regionLines ≠ home)
  Core.nextRefill
    { c with
      lines := c.lines.filter other, refills := c.refills.filter other, preloads := c.preloads.filter other
      wanted := c.wanted.filter fun e => other e.1 }

/-- Every core with code of the plan drops the cache lines of it (R80, R161). -/
def State.dropLines (r : Resident) (s : State) : State :=
  s.each (List.range 120) fun s n =>
    if (r.blockOf n).isNone then s
    else
      let p := s.coreFor r.plan.twin n
      let s := s.onCore p (Core.dropHome r.home)
      if r.plan.twin then s.onCore (p + 1) (Core.dropHome r.home) else s

/-! ## Tokens -/

/-- At or after the deadline of the frame in progress (R53, R68). -/
def State.pastDeadline (s : State) : Bool := s.job.open_ && !s.beforeDeadline

/-- Frame work of core `p` ends: too late where the deadline has come (R42, R53). -/
def State.endWork (p : Nat) (s : State) : State :=
  if s.pastDeadline && !(s.core p).scoreboard then s.onCore p fun c => { c with late := true } else s

/-- Post `n` tokens to queue `q` of core `p` (R65, R67); a post at or after the deadline is not counted at it (R68). -/
def State.postTokens (p q n : Nat) (s : State) : State :=
  if n = 0 then s
  else
    let s := if s.pastDeadline then s.onCore p fun c => { c with closing := c.closing.or (some c.queues) } else s
    let v := Tab.get 0 q (s.core p).queues + n
    if v ≤ 64 then s.onCore p fun c => { c with queues := Tab.set 0 q v c.queues }
    else ((s.onCore p fun c => { c with queues := Tab.set 0 q 64 c.queues }).fault .tokenOverflow (srcCore p) q).stopCore p

/-- Take `n` tokens. -/
def State.takeTokens (p q n : Nat) (s : State) : State :=
  if n = 0 then s else s.onCore p fun c => { c with queues := Tab.modify 0 q (fun v => v - n) c.queues }

/-! ## Units -/

def ExecUnit.entries : ExecUnit → Nat
  | .mx => 8
  | .vx => 16
  | .mv => 40
  | .nx => 48
  | .hq => 16

def OpKind.unit : OpKind → ExecUnit
  | .load | .store | .gather | .scatter | .fill => .mv
  | .mma | .mmas => .mx
  | .vprog | .vred | .seed => .vx
  | .send | .recv | .put | .get | .cred => .nx
  | .turn | .upda | .updb | .upds => .hq

/-- The macro-ops of the update engine. -/
def OpKind.updates (k : OpKind) : Bool := k == .upda || k == .updb || k == .upds

/-- The unit has a free entry (R56, R57). -/
def Core.unitFree (u : ExecUnit) (c : Core) : Bool :=
  decide ((c.flights.filter fun f => f.kind.unit == u).length < u.entries) && decide (c.flights.length < 128)

/-! ## Failed checks -/

/-- A hub slot is given back (R57). -/
def State.freeHubSlot (f : Flight) (p : Nat) (s : State) : State := s.releaseSlots p [f]

/-- Change flight `id` of core `p`. -/
def State.onFlight (p id : Nat) (f : Flight → Flight) (s : State) : State :=
  s.onCore p fun c => { c with flights := c.flights.map fun x => if x.id = id then f x else x }

/-- End the scoreboard run: its cores switch back to token mode, their macro-ops and hub slots are given up, its plan leaves, its command completes
(R57, R72, R409). -/
def State.endScore (status : Nat) (s : State) : State :=
  match s.job.score with
  | none => s
  | some tag =>
    let s := match s.resident 4 with
      | some r => s.dropLines r
      | none => s
    let s := s.onJob fun j => { j with score := none, slots := Tab.set {} 4 {} j.slots }
    let s := s.each (s.cores.filter fun e => e.2.scoreboard && e.2.test.state ≠ .running) fun s e => s.releaseSlots e.1 e.2.flights
    (s.onCores fun t => t.map fun e =>
      (e.1, if e.2.scoreboard && e.2.test.state ≠ .running then { e.2.leaveTest with flights := [], stopped := false } else e.2)).complete
        6 tag status

/-- Core `p` works in the scoreboard run. -/
def State.scoresOn (s : State) (p : Nat) : Bool := s.scoring && (s.core p).scoreboard

/-- A check failed on core `p`: the frame is overrun at once, or the scoreboard run ends with 0x0403 (R95, R197, R360). -/
def State.checkFailed (p : Nat) (s : State) : State :=
  if s.scoresOn p then (s.stopCore p).endScore 0x0403 else s.coreOverrun p

/-- The same for a hub engine that works for core `p`, with no core stopped (R197, R362). -/
def State.engineFailed (p : Nat) (s : State) : State := if s.scoresOn p then s.endScore 0x0403 else s.overrun

/-- Ask the buddy for a poisoned granule of a current own area, naming the commit that its version belongs to; a poisoned granule of a current buddy
area is named by its own key, so that the partner's next copy holds it (R328, log entry 38). -/
def State.askBuddy (b : Nat) (s : State) : State :=
  if 64 * b < 2 ^ 100 || 2 ^ 101 ≤ 64 * b then s
  else
    let area := (64 * b - 2 ^ 100) / 4096
    let dk := area / 2
    let (_, _, _, buddy, _) := dirParts dk
    if (s.resolve dk).1.toNat = area % 2 && !s.sealSt.asked.contains dk then
      let h := s.hub (s.dirHub dk)
      let held := if !h.rollback && s.sealSt.flipped.contains dk then h.commit else h.prevCommit
      let s := s.emit (.sheetAsk dk held)
      let s := match s.buddyCoord with
        | some c => s.control 2 s.jobTag s.attemptTag c (granuleBytes kindSheetAsk dk held [])
        | none => s
      if buddy = 0 then s.onSealSt fun v => { v with asked := dk :: v.asked } else s
    else s

/-- An uncorrectable block was read: poisoned, logged, and asked from the buddy where it is a committed sheet's (R197, R328). -/
def State.readPoison (b : Nat) (s : State) : State := (s.eccUncorrectable b).askBuddy b

/-- DETAIL of ARRAY_CHECK and ARRAY_PARITY (R95). -/
def arrayDetail (array row pass : Nat) : Nat := array + row * 2 ^ 8 + pass * 2 ^ 24

/-- The array check of core `p` failed (R95): D of the macro-op is open, its token withheld, later MX macro-ops end without effect, and issue
stops. -/
def State.arrayFailed (p : Nat) (f : Flight) (e : Event) (detail : Nat) (s : State) : State :=
  let s := ((s.onFlight p f.id fun x => { x with withheld := true }).freeDest [f]).fault e (srcCore p) detail
  if s.scoresOn p then s.endScore 0x0403 else (s.onCore p fun c => { c with mxDead := true }).coreOverrun p

/-- An error in array `a` left output row `row` with a wrong residue: a single wrong bit, so never 0 mod 255 (R94, R96; which bit is open, log
entry 11). -/
def State.spoilRow (p a row : Nat) (s : State) : State :=
  let wrong := 2 ^ ((Config.freeByte s.free).toNat % 8)
  let spoil := fun (x : MxArray) => { x with residues := x.residues.set row (BitVec.ofNat 8 (((x.residues.getD row 0).toNat + wrong) % 255)) }
  (s.onCore p fun c => { c with arrays := Tab.modify {} a spoil c.arrays }).onFree fun n => n + 1

/-- The comparison after the last unit (R94, R95): the array and the lowest output row where a flag disagrees with the outputs, or Z is not
zero on a row without the flag. -/
def Core.mismatch (c : Core) : Option (Nat × Nat) :=
  let bad := fun (a row : Nat) =>
    let x := Tab.get {} a c.arrays
    let flag := x.flags.getD row false
    flag ≠ x.outs.getD row false || (!flag && x.residues.getD row 0 ≠ 0)
  (List.range (Tab.get {} 0 c.arrays).residues.length).findSome? fun row =>
    ((List.range 4).find? fun a => bad a row).map fun a => (a, row)

/-- The twin comparator found a difference: nothing leaves, and both cores stop (R363). -/
def State.twinFailed (p : Nat) (s : State) : State :=
  let t := ((s.fault .twinMismatch (srcCore p)).stopCore (p + 1)).checkFailed p
  if s.scoresOn p then t else t.voteIntegrity

/-- The macro-op sends something out of its core: a memory write, a hub request, a packet or a slot (R363). -/
def OpKind.leaves (k : OpKind) : Bool := k.unit != .mx && k.unit != .vx && k != .recv

/-- The hub that executes a macro-op, where one does. -/
def Flight.engine (f : Flight) : Option Nat := if f.kind.unit = .hq then f.hub else none

/-- A network-form CRED: its adder works as the partner's slot arrives (R146, R362). -/
def Flight.reduces (f : Flight) : Bool := f.kind == .cred && !opLocal f.op

/-- What a check found while flight `f` of core `p` ran: it is logged, and the tokens are withheld where the manual withholds them. -/
def State.upset (p : Nat) (f : Flight) (u : Upset) (s : State) : State :=
  let hold := fun (s : State) => s.onFlight p f.id fun x => { x with withheld := true }
  match upsetFound u with
  | .none | .icacheParity | .badNativeWord => s
  | .pathParity _ _ =>
    match f.engine with
    | some h =>
      let s := hold (s.fault .pathParity (srcHub h))
      if f.kind = .turn && !s.scoresOn p then s else s.engineFailed p
    | none => (hold (s.fault .pathParity (srcCore p))).checkFailed p
  | .corrected b => s.eccCorrected b
  | .uncorrectable b =>
    let s := hold (s.readPoison b)
    if f.kind = .turn && !s.scoresOn p then s else if f.kind.unit = .hq then s.engineFailed p else s.checkFailed p
  | .arrayParity a pass row =>
    if f.kind.unit = .mx then s.arrayFailed p f .arrayParity (arrayDetail a.val row.toNat pass.toNat) else s
  | .arrayCheck a row => if f.kind.unit = .mx then s.spoilRow p a.val row.toNat else s
  | .datapath =>
    if f.kind = .cred then (hold (s.fault .reduceMismatch (srcCompute (dieOf p)))).engineFailed p
    else
      match f.engine with
      | some h => if f.kind.updates then (hold (s.fault .updateMismatch (srcHub h))).engineFailed p else s
      | none => s
  | .twin => if f.kind.leaves then (hold s).twinFailed p else s

/-- What a row may find as a macro-op completes: the twins and the copies of a datapath are compared as data move, before (R362, R363; log
entry 140). -/
def upsetAtEnd (u : Upset) : Upset := if u = .twin || u = .datapath then .none else u

/-- The effect of a flight does not take place: the copies of its datapath, or the twins, disagreed, or it read poison. The turn engine
goes on (R197). -/
def upsetBlocks (k : OpKind) (u : Upset) : Bool :=
  match upsetFound u with
  | .datapath => k == .cred || k.updates
  | .twin => k.leaves
  | .uncorrectable _ | .pathParity _ _ => k != .turn
  | _ => false

/-! ## Fences -/

/-- The two cores of a pair hold the same (R363). The second keeps its own numbers, test and counts, and what it saved when it entered scoreboard
mode (R72); the hub slots of the pair's macro-ops are the first's (R57). -/
def State.mirrorTwin (q : Seat) (s : State) : State :=
  if q.r.plan.twin then
    let c := s.core q.p
    let s := s.onCore (q.p + 1) fun d =>
      { c with logical := d.logical, retired := d.retired, test := d.test, inReset := d.inReset, saturations := d.saturations, holds := d.holds
               saved := d.saved, flights := c.flights.map fun f => { f with hub := none, detour := [] } }
    s.copyBytes (tileKey q.p 0) (tileKey (q.p + 1) 0) tileBytes
  else s

/-- Every strand of the scoreboard run has ended its program: the run is over (R70). -/
def State.endRun (q : Seat) (s : State) : State :=
  let s := s.mirrorTwin q
  if s.cores.all fun e => !e.2.scoreboard || e.2.strands.all fun y => !y.2.work then s.endScore 0 else s

/-- A strand's fence clears when none of its macro-ops is in flight; FRAME_END then ends its work in the frame (R61, R62, R70). -/
def State.clearFence (q : Seat) (t : Nat) (s : State) : State :=
  let x := s.strand q.p t
  if (s.core q.p).flights.any fun f => f.strand = t then s
  else
    match x.hold with
    | .none => s
    | .fence => s.onStrand q.p t fun x => { x with hold := .none, st := .ready }
    | .frameEnd =>
      let last := !q.token || (q.native t).length ≤ x.pc
      let s := s.onStrand q.p t fun x => { x with hold := .none, work := false, st := if last then .planDone else .frameDone }
      if q.token then s.endWork q.p else s.endRun q

/-! ## Issue (R59) -/

/-- Nothing holds the core from issuing: no failed check and no reset (R95, R370), and in a retry no outstanding rerun (R365). -/
def State.mayIssue (s : State) (p : Nat) : Bool :=
  let c := s.core p
  !c.stopped && !c.inReset && !(s.retrying && !c.scoreboard && c.test.rerun)

/-- The frame or the scoreboard run lets the core issue; the cores of a pair issue together (R363). -/
def State.issues (s : State) (q : Seat) : Bool :=
  let c := s.core q.p
  (if q.token then s.issueOpen && !c.scoreboard else c.scoreboard && c.test.state ≠ .running) &&
    s.mayIssue q.p && (!q.r.plan.twin || s.mayIssue (q.p + 1)) && !s.dump.hang

/-- The tile-store regions that a macro-op's operands overlap (R69). -/
def State.footprint (s : State) (q : Seat) (o : RawOp) : List Nat :=
  (o.views.filter fun v => !v.remote).flatMap fun v => ((s.seatView q v.w).map View.regions).getD []

/-- The first condition of R59 that a strand's head fails, as the strand state of R63. -/
def State.blocked (s : State) (q : Seat) (t : Nat) (o : RawOp) (regions : List Nat) : Option StrandState :=
  let c := s.core q.p
  let x := s.strand q.p t
  if !c.lines.contains (q.line t x.pc) then some .waitCode
  else if x.hold ≠ .none then some .waitFence
  else if q.token && decide (Tab.get 0 o.op.waitQ.val c.queues < o.op.waitN.toNat) then some .waitToken
  else if (opUnit o.opcode).any fun u => !c.unitFree u then some .waitUnit
  else if !q.token && c.flights.any fun f => f.regions.any regions.contains then some .waitRegion
  else none

/-- The macro-op at the head of a strand. -/
def State.head (s : State) (q : Seat) (t : Nat) : Option RawOp := (q.native t)[(s.strand q.p t).pc]?

/-- The strand's head is eligible (R59). -/
def State.eligible (s : State) (q : Seat) (t : Nat) : Bool :=
  (s.strand q.p t).work &&
    match s.head q t with
    | some o => (s.blocked q t o (s.footprint q o)).isNone
    | none => false

/-- The sequencer chooses strand `t`: the first eligible one at or after the rotating pointer (R60). -/
def State.chosen (s : State) (q : Seat) (t : Nat) : Bool :=
  ((List.range 64).map fun i => ((s.core q.p).rot + i) % 64).find? (s.eligible q) == some t

/-- The seat that physical core `p` holds; the second core of a pair holds the pair's. -/
def State.seatAt (s : State) (p : Nat) : Option Seat :=
  (List.range 120).findSome? fun n => (s.seat n).filter fun q => q.p = p || (q.r.plan.twin && q.p + 1 = p)

/-- The state of a strand (R63): with work in the frame, the first condition of R59 that its head fails; a reset has left it IDLE (R370). -/
def State.strandState (s : State) (p t : Nat) : StrandState :=
  let x := s.strand p t
  if !x.work || x.st = .halted || x.st = .idle then x.st
  else
    match s.seatAt p with
    | none => x.st
    | some q =>
      match s.head { q with p } t with
      | none => if x.hold = .none then x.st else .waitFence
      | some o => (s.blocked { q with p } t o (s.footprint q o)).getD .ready

/-- The strand has just issued: its counter moves on, tokens are taken, the next line is prefetched at the first macro-op of a
line (R60, R65, R82). -/
def State.advanceStrand (q : Seat) (t : Nat) (o : RawOp) (s : State) : State :=
  let pc := (s.strand q.p t).pc
  let line := q.line t pc
  let s := s.onStrand q.p t fun x => { x with pc := pc + 1, st := .ready }
  let s := s.onCore q.p fun c => { c.useLine line with issued := satInc c.issued, rot := (t + 1) % 64 }
  let s := if pc % 64 = 0 && decide (pc + 64 < (q.native t).length) then s.onCore q.p (Core.request (line + 1) false) else s
  if q.token then s.takeTokens q.p o.op.waitQ.val o.op.waitN.toNat else s

/-- Issue of the macro-op `oc` with fields `m` at the head of a strand; `body` is what it does once it has issued. A row whose macro-op is not
the strand's head, or whose strand the sequencer does not choose, issues nothing (R60; log entries 2 and 3). -/
def State.issue (i : Issue) (oc : Nat) (m : MacroOp) (body : Seat → State → State) (s : State) : State :=
  match s.seat i.core.val with
  | none => s
  | some q =>
    let t := i.strand.val
    let x := s.strand q.p t
    if !s.issues q || !x.work then s
    else
      match s.head q t with
      | none => s
      | some o =>
        if o.opcode ≠ oc || (oc ≠ ocFrameEnd && o.op ≠ m) then s
        else
          match s.blocked q t o (s.footprint q o) with
          | some .waitCode =>
            (s.onStrand q.p t fun x => { x with st := .waitCode }).onCore q.p (Core.request (q.line t x.pc) false)
          | some st => s.onStrand q.p t fun x => { x with st }
          | none =>
            if !s.chosen q t then s.onStrand q.p t fun x => { x with st := .ready }
            else if i.upset = .icacheParity then
              let line := q.line t x.pc
              let s := s.onCore q.p fun c => { c with lines := c.lines.filter fun l => l ≠ line }
              ((s.onStrand q.p t fun x => { x with st := .waitCode }).onCore q.p (Core.request line false)).fault .icacheParity (srcCore q.p)
            else if i.upset = .badNativeWord then
              (s.fault .macroOpFault (srcCore q.p)).stopCore q.p
            else (body q (s.advanceStrand q t o)).mirrorTwin q

/-- A sequencer macro-op: it completes as it issues (R56, R61). -/
def State.issueSequencer (i : Issue) (oc : Nat) (m : MacroOp) (body : Seat → State → State) (s : State) : State :=
  s.issue i oc m (fun q s => body q (if q.token then s.postTokens q.p m.postQ.val m.postN.toNat else s))

/-! ## Macro-ops of a unit -/

/-- The flight of a macro-op that has just issued. -/
def State.newFlight (s : State) (q : Seat) (t : Nat) (kind : OpKind) (o : RawOp) : Flight :=
  let m := o.op
  { id := (s.core q.p).nextId, strand := t, kind, postQ := m.postQ.val, postN := if q.token then m.postN.toNat else 0
    regions := if q.token then [] else s.footprint q o
    takenQ := m.waitQ.val, takenN := if q.token then m.waitN.toNat else 0, attempt := s.attemptTag.toNat, op := m }

/-- The hub of a slot has none free, or others wait for one (R57). -/
def Hub.full (v : Hub) : Bool := decide (128 ≤ v.slots) || !v.waiting.isEmpty

/-- A macro-op that has just issued must wait before it starts: in MX and VX for the one before it (R445), at its hub for a slot (R57). -/
def State.mustWait (s : State) (p : Nat) (f : Flight) : Bool :=
  ((f.kind.unit == .mx || f.kind.unit == .vx) && (s.core p).flights.any fun x => x.kind.unit == f.kind.unit) ||
    f.hub.any fun h => (s.hub h).full

/-- A flight takes its unit's entry, and its hub's slot or a place among those that wait for one. -/
def State.addFlight (p : Nat) (f : Flight) (s : State) : State :=
  let s := s.onCore p fun c => { c with flights := c.flights ++ [f], nextId := c.nextId + 1 }
  match f.hub with
  | some h =>
    s.onHub h fun v => if f.waits.isSome then { v with waiting := v.waiting ++ [.entry p f.id] } else { v with slots := v.slots + 1 }
  | none => s

/-- The runs of keys that a view covers, none across a granule. -/
def State.viewKeys (s : State) (v : View) : List (Nat × Nat) :=
  v.runs.flatMap fun r => (pieces r.1 r.2).map fun x => (s.areaByteKey v.area x.1, x.2)

/-- The first poisoned block of some runs of keys (R197). -/
def State.poisonOf (s : State) (keys : List (Nat × Nat)) : Option Nat :=
  (keys.flatMap fun k => (List.range (k.2 / 64 + 2)).filterMap fun i =>
    let b := k.1 / 64 + i
    if 64 * b < k.1 + k.2 && s.poisonedAt (64 * b) then some b else none).head?

def State.poisonIn (s : State) (v : View) : Option Nat := s.poisonOf (s.viewKeys v)

/-- Poison that a command meets in memory joins what its row carried: an error that ECC corrects elsewhere is logged beside it (R196, R197). -/
def State.joinPoison (s : State) (u : Upset) (found : Option Nat) : State × Upset :=
  match found with
  | none => (s, u)
  | some b =>
    match upsetFound u with
    | .none => (s, .uncorrectable b)
    | .corrected c => (s.eccCorrected c, .uncorrectable b)
    | _ => (s, u)

/-- What a macro-op finds: its row's upset, and the poison in what it reads. -/
def State.upsetOf (s : State) (u : Upset) (reads : List View) : State × Upset := s.joinPoison u (reads.findSome? s.poisonIn)

/-- The work of a unit's macro-op: the local views it reads and writes, and what it does to the state and to its flight. -/
structure UnitWork where
  reads : Seat → State → List View := fun _ _ => []
  writes : Seat → State → List View := fun _ _ => []
  effect : Upset → Seat → Flight → State → State × Flight := fun _ _ f s => (s, f)

/-- A flight starts its work. Data move as it starts; MACRO_OP_COMPLETION ends it (log entry 4). Where a check blocks the effect, the tile it
would have written holds unspecified bytes; after a mismatch an MX macro-op ends without effect (R95). The adder of a network-form CRED is compared
as the partner's slot comes (R362). One that needs a stack which serves no
request stays as it is (R205), and one whose requests wait in a detour queue ends after it drains (R200). -/
def State.startFlight (q : Seat) (f : Flight) (u : Upset) (w : UnitWork) (s : State) : State :=
  let reads := w.reads q s
  let writes := w.writes q s
  if s.unserved ((reads ++ writes).flatMap s.viewKeys) then s.onFlight q.p f.id fun x => { x with waits := some u }
  else
    let before := s
    let s := s.askReads (reads.flatMap s.viewKeys)
    let (s, u) := s.upsetOf u reads
    let f := { f with waits := none, dest := writes.flatMap View.keyRuns }
    if f.kind.unit == .mx && (s.core q.p).mxDead then s.onFlight q.p f.id fun _ => { f with withheld := true, dest := [] }
    else if u = .datapath && f.reduces then
      let (s, f) := w.effect u q { f with mismatch := true } s
      s.onFlight q.p f.id fun _ => { f with detour := detoured before s }
    else if upsetBlocks f.kind u then
      let s := s.onFlight q.p f.id fun _ => f
      let s := if u = .datapath || u = .twin then s else s.freeDest [f]
      s.upset q.p f u
    else
      let (s, f) := w.effect u q f s
      (s.onFlight q.p f.id fun _ => { f with detour := detoured before s }).upset q.p f u

/-- Issue of a unit's macro-op: `hub` is the hub that executes it, and `work` its work. -/
def State.issueUnit (i : Issue) (oc : Nat) (kind : OpKind) (m : MacroOp) (hub : Seat → State → Option Nat) (work : UnitWork) (s : State) : State :=
  s.issue i oc m fun q s =>
    let i := if i.upset = .twin && !q.r.plan.twin then { i with upset := .none } else i
    let f := { s.newFlight q i.strand.val kind { opcode := oc, op := m } with hub := hub q s }
    if s.mustWait q.p f then s.addFlight q.p { f with waits := some i.upset }
    else (s.addFlight q.p f).startFlight q f i.upset work

/-! ## Completion (R57, R66) -/

/-- A flight of core `p` ends: its entry and hub slot are released, its tokens posted, its strand's fence cleared; a hub counts its update
macro-ops, and a core the cycles that its arrays held (R90, R391). -/
def State.retireFlight (p : Nat) (seat : Option Seat) (f : Flight) (s : State) : State :=
  let s := (s.onCore p fun c => { c with flights := c.flights.filter fun x => x.id ≠ f.id }).freeHubSlot f p
  let s := if f.kind.updates then s.each f.hub.toList fun s h => s.onHub h fun v => { v with updateOps := satInc v.updateOps } else s
  let s := if f.kind.unit = .mx then
      (s.onCore p fun c => { c with holds := satAdd c.holds (Config.freeHolds s.free) }).onFree fun n => n + 1
    else s
  let s := if f.withheld then s else s.postTokens p f.postQ f.postN
  match seat with
  | some q => (s.clearFence q f.strand).mirrorTwin q
  | none => s

/-- The seat and the physical core of a logical core, whether or not its plan runs in the frame. -/
def State.coreSeat (s : State) (n : Nat) : Nat × Option Seat :=
  match s.seat n with
  | some q => (q.p, some q)
  | none => (s.phys n, none)

/-- A flight that the completion row may end: in order in MX and VX, none of it left to send or receive, and TURN in the hub's
order (R56, R212). -/
def State.mayComplete (s : State) (p : Nat) (f : Flight) : Bool :=
  f.left == 0 && f.data.isEmpty && f.waits.isNone && f.detour.isEmpty &&
    (if f.kind.unit == .mx || f.kind.unit == .vx then
      ((s.core p).flights.find? fun x => x.kind.unit == f.kind.unit).map (fun x => x.id) == some f.id
     else if f.kind == .turn then
      match f.hub with
      | some h => (s.hub h).turnQueue.head? == some (p, f.id)
      | none => true
     else true)

end Sys2Proof.Machine
end

