-- ==== Sys2Proof/Machine/Cost.lean ====
section
/-! DEFINITION. The cost model (R158, R101, R194) and the predicted time W_c of a frame (R159), in array cycles, with the frame fit
and the headroom frames. -/
namespace Sys2Proof.Machine

/-- The array clock of a contour in units of 10 MHz (R332). -/
def contourClock (c : Nat) : Nat := [270, 243, 203, 162].getD c 162

/-- C of R158: the array cycles at clock `f` in num/den ns. -/
def cyc (f num : Nat) (den : Nat := 1) : Nat := ceilDiv (num * f) (100 * den)

/-- The array cycles at clock `f` in a number of fabric cycles of 0.64 ns. -/
def fabricCyc (f n : Nat) : Nat := cyc f (64 * n) 100

/-- A time that no frame has. -/
def unbounded : Nat := 2 ^ 32

/-- Where an operand's bytes lie: a tile store, HBM of one hub, the spread arena, or a hub cache. -/
inductive MemClass where
  | tile
  | hbm (hub : Nat)
  | spread
  | hubc (hub : Nat)
  deriving DecidableEq, Repr

/-- The place of a descriptor's bytes for physical core `p`. -/
def State.memClass (s : State) (d : TileDesc) (p : Nat) : MemClass :=
  if d.space = spTile then .tile
  else if d.space = spSpread then .spread
  else if d.space = spHubc then .hubc (if d.hubField = 0xFF then hubOf p else d.hubField)
  else if d.space = spSheet then .hbm (((s.tensor? d.tensor).map fun t => t.hub).getD 0)
  else .hbm (hubOf p)

/-- The access time L in ns. -/
def MemClass.latency (m : MemClass) (p : Nat) : Nat :=
  match m with
  | .tile => 0
  | .spread => 340
  | .hbm h => if h = hubOf p then 300 else 340
  | .hubc h => if h = hubOf p then 300 else 340

/-- H in units of 0.1 GB/s. -/
def MemClass.rate : MemClass → Nat
  | .hbm _ => 89280
  | .spread => 714000
  | .hubc _ => 16384
  | .tile => 0

/-- The cycles that `n` cores sharing a memory of rate `h` need for `b` bytes each: b / r, rounded up. -/
def transferCycles (b n h f : Nat) : Nat :=
  if h = 0 then ceilDiv b 256 else max (ceilDiv b 256) (ceilDiv (b * n * f) (10 * h))

/-- Join runs that follow one another. -/
def mergeRuns : List (Nat × Nat) → List (Nat × Nat)
  | [] => []
  | (o, n) :: t =>
    match mergeRuns t with
    | (o', n') :: r => if o + n = o' then (o, n + n') :: r else (o, n) :: (o', n') :: r
    | [] => [(o, n)]

/-- Bb of R158 and R194. -/
def View.burstBytes (v : View) (m : MemClass) : Nat :=
  let runs := mergeRuns v.runs
  match m with
  | .hbm _ | .spread => (runs.flatMap fun r => (pieces r.1 r.2).map fun x => roundUp x.2 2048).sum
  | .hubc _ | .tile => (runs.map fun r => roundUp r.2 64).sum

/-- What a frame is priced with: its plan, variant, frame, nodes, and P − G in ns. -/
structure Pricing where
  plan : Plan
  v : Variant
  frame : Nat
  nodes : List Node
  window : Nat

def Pricing.clock (c : Pricing) : Nat := contourClock c.v.contour

def Pricing.desc (c : Pricing) (w : BitVec 64) : TileDesc := (c.plan.tiles[opDesc w]?).getD {}

/-- The operand of a mover macro-op that is not in TILE; none where both are. -/
def Pricing.outer (c : Pricing) (o : RawOp) : Option (BitVec 64) :=
  let w := if o.opcode = ocLoad || o.opcode = ocGather then o.op.op1 else o.op.op0
  if (c.desc w).space = spTile then none else some w

def isMover (oc : Nat) : Bool := oc = ocLoad || oc = ocStore || oc = ocGather || oc = ocScatter

/-- n of R158: the cores of the module at a stage with a mover macro-op on memory `m`. -/
def State.sharers (s : State) (c : Pricing) (stage : Nat) (m : MemClass) : Nat :=
  let users := (c.nodes.filter fun n => n.stage = stage && isMover n.op.opcode &&
    (c.outer n.op).any fun w => s.memClass (c.desc w) (s.coreFor c.plan.twin n.core) = m).map fun n => n.core
  (users.foldl (fun l x => if l.contains x then l else x :: l) []).length

/-- The bytes a mover macro-op moves, as counted for r. -/
def State.moverBytes (s : State) (c : Pricing) (n : Node) : Nat :=
  match c.outer n.op with
  | none => 0
  | some w =>
    let d := c.desc w
    let p := s.coreFor c.plan.twin n.core
    if n.op.opcode = ocGather || n.op.opcode = ocScatter then
      let rows := (c.desc (if n.op.opcode = ocGather then n.op.op.op0 else n.op.op.op1)).rows
      rows * roundUp (packedRow d.fmt d.cols) 2048
    else (viewOf d w p 0).burstBytes (s.memClass d p)

/-- T_n of R158 in bytes of the frame for the hub that owns a sheet. -/
def State.hubTraffic (s : State) (c : Pricing) (stage hub : Nat) : Nat :=
  ((c.nodes.filter fun n => n.stage = stage && isMover n.op.opcode &&
    (c.outer n.op).any fun w => s.memClass (c.desc w) (s.coreFor c.plan.twin n.core) = .hbm hub).map (s.moverBytes c)).sum

/-! ## Durations (R158) -/

/-- The target's hops and the rate in GB/s of the port that leads to it (R145, R251). Of the ports on the route the module knows its own: a legend
tells the states of a neighbour's ports, but not which of them has which bearing (R284; log entry 147). -/
def State.routeOf (s : State) (target : BitVec 64) : Nat × Nat :=
  match s.topo.gaz with
  | none => (1, 100)
  | some g =>
    let rank := tgtRank target
    let r := if tgtRel target then ((g.selfRank : Int) + signed 17 rank) % (max 1 g.jobSize : Nat) else (rank : Int)
    match g.coord r.toNat with
    | none => (1, 100)
    | some dest =>
      let units := match g.rings.nextBearing g.selfCoord dest with
        | some b => s.unitsAt b
        | none => 1
      (g.rings.hops g.selfCoord dest, 100 * max 1 units)

/-- Bytes of the view of an operand. -/
def Pricing.bytes (c : Pricing) (w : BitVec 64) : Nat := (viewOf (c.desc w) w 0 0).bytes

/-- Bytes that one pass of a VPROG reads from an input or writes to its output (R158); where the passes differ, those of the first (log entry 155). -/
def passBytes (out x : TileDesc) : Nat :=
  let e := min 256 (out.rows * out.cols)
  let n := (if x.rows = 1 then 1 else min out.rows (ceilDiv e out.cols)) * (if x.cols = 1 then 1 else min out.cols e)
  roundUp (ceilDiv (fmtBits x.fmt * min e n) 8) 64

/-- c_p of R158. -/
def programCost (p : List VInstr) : Nat := (p.map fun i => (vopCost i.vop).getD 0).sum

/-- ceil(log2 n). -/
def log2Up (n : Nat) : Nat := if n ≤ 1 then 0 else Nat.log2 (n - 1) + 1

/-- Units of a matrix macro-op (R101). -/
def mmaUnits (k n : Nat) (fp32 : Bool) (pass : Nat) : Nat := (if fp32 then pass else 1) * ceilDiv n 128 * ceilDiv k 64

/-- The slots of a circuit in the frame. -/
def Pricing.slotsOf (c : Pricing) (id : Nat) : List SlotEntry := c.v.slots.filter fun e => e.circuit = id && e.frame = c.frame

/-- Fabric cycles of a slot (R148). -/
def Circuit.slotLen (x : Circuit) (payload : Nat) : Nat := ceilDiv (payload + 32) (64 * max 1 x.units)

/-- When hop `h` of a slot transmits and when its trailing guard ends, in fabric cycles after the tick (R243, and the example of R159: both
guards count after the slot opens; log entry 117). -/
def Circuit.hopStart (x : Circuit) (e : SlotEntry) (h : Nat) : Nat := e.start + (h - 1) * (x.slotLen e.payload + 104)
def Circuit.slotEnd (x : Circuit) (e : SlotEntry) : Nat := x.hopStart e x.hops + x.slotLen e.payload + 64

/-- The end of a circuit's last slot in the frame, in array cycles. -/
def Pricing.slotEnd (c : Pricing) (x : Circuit) : Nat :=
  fabricCyc c.clock (((c.slotsOf x.id).map x.slotEnd).foldl max 0)

/-- Slots of a circuit in a frame by rising start. -/
def Variant.slotsIn (v : Variant) (f id : Nat) : List SlotEntry :=
  (v.slots.filter fun e => e.circuit = id && e.frame = f).foldl
    (fun l e => l.takeWhile (fun x => x.start ≤ e.start) ++ e :: l.dropWhile fun x => x.start ≤ e.start) []

/-- The slots of a circuit in the frame that a SEND or CRED sends in: each takes, in program order, as many as its bytes need. -/
def Pricing.slotsFor (c : Pricing) (x : Circuit) (n : Node) : List SlotEntry :=
  let sent := fun (o : RawOp) => c.bytes (if o.opcode = ocSend then o.op.op1 else o.op.op2)
  let before := c.nodes.filter fun y =>
    y.stage = n.stage && y.core = n.core && (y.op.opcode = ocSend || (y.op.opcode = ocCred && !opLocal y.op.op)) && opExt y.op.op.op0 = x.id &&
      (y.strand < n.strand || (y.strand = n.strand && y.idx < n.idx))
  let take := fun (l : List SlotEntry) (b : Nat) =>
    (l.foldl (fun (a : List SlotEntry × Nat) e => if a.2 = 0 then (a.1 ++ [e], 0) else (a.1, a.2 - e.payload)) ([], max 1 b)).1
  before.foldl (fun l y => take l (sent y.op)) (c.v.slotsIn c.frame x.id)

/-- The start of its first slot, rounded down. -/
def Pricing.slotStart (c : Pricing) (x : Circuit) (n : Node) : Nat :=
  (((c.slotsFor x n).map fun e => e.start).foldl min unbounded) * 64 * c.clock / 10000

/-- Granules that a view covers only in part, those of a SHEET view of the parameter (R158, R315). -/
def partGranules (v : View) (byRow : Bool) : Nat :=
  let runs := if byRow then v.runs else mergeRuns v.runs
  let ps := runs.flatMap fun r => pieces r.1 r.2
  let part := (ps.filter fun x => x.2 ≠ 4096).map fun x => x.1 / 4096
  (part.foldl (fun l x => if l.contains x then l else x :: l) []).length

/-- The duration of a macro-op whose end does not depend on a slot; `none` is unbounded. -/
def State.duration (s : State) (c : Pricing) (n : Node) : Option Nat :=
  let o := n.op
  let m := o.op
  let oc := o.opcode
  let f := c.clock
  let p := s.coreFor c.plan.twin n.core
  let mem := fun (w : BitVec 64) => s.memClass (c.desc w) p
  let lat := fun (w : BitVec 64) => cyc f ((mem w).latency p)
  let twin := if c.plan.twin then 8 else 0
  let d0 := c.desc m.op0
  if oc ≤ 4 then some 1
  else if isMover oc then
    match c.outer o with
    | none =>
      let x := if oc = ocGather then m.op1 else m.op0
      let d := c.desc x
      let rows := (c.desc (if oc = ocGather then m.op0 else m.op1)).rows
      some (4 + ceilDiv (rows * roundUp (packedRow d.fmt d.cols) 2048) 256)
    | some w =>
      let n' := s.sharers c n.stage (mem w)
      some (4 + lat w + transferCycles (s.moverBytes c n) n' (mem w).rate f + if oc = ocStore || oc = ocScatter then twin else 0)
  else if oc = ocFill then
    if d0.space = spTile then some (4 + ceilDiv (c.bytes m.op0) 256)
    else
      some (4 + lat m.op0 +
        transferCycles ((viewOf d0 m.op0 p 0).burstBytes (mem m.op0)) (max 1 (s.sharers c n.stage (mem m.op0))) (mem m.op0).rate f +
        twin)
  else if oc = ocMma || oc = ocMmas then
    let a := c.desc m.op1
    let u := mmaUnits a.cols (c.desc m.op2).cols (a.fmt = 0) m.pass.toNat
    some ((if oc = ocMma then 369 else 377) + a.rows + (u - 1) * max a.rows 256)
  else if oc = ocVprog then
    let prog := (c.plan.vectors[opExt m.op0]?).getD []
    let ins := ([m.op1, m.op2].filter fun w => !noOperand w).map c.desc
    let b := passBytes d0 d0 + (ins.map (passBytes d0)).sum
    some (8 + ceilDiv (d0.rows * d0.cols) 256 * max (programCost prog) (ceilDiv b 2048) +
      if d0.sfmt ≠ 0 && d0.dir then ceilDiv (d0.blockSize * d0.cols) 256 else 0)
  else if oc = ocVred then
    let d := c.desc m.op1
    some (8 + ceilDiv (d.rows * d.cols) 256 + 2 * log2Up (if m.flags.getLsbD 3 then d.rows else d.cols))
  else if oc = ocSeed then some 4
  else if oc = ocPut || oc = ocGet then
    let (h, r) := s.routeOf m.op2
    let b := c.bytes (if oc = ocPut then m.op1 else m.op0)
    let one := 180 + 95 * (h - 1)
    some (4 + cyc f (one * r + b) r + (if oc = ocGet || m.postN = 0 then cyc f one else 0) + twin)
  else if oc = ocCred then some (4 + ceilDiv (c.bytes m.op0) 256)
  else if oc = ocTurn then
    let l := fun (w : BitVec 64) => if (c.desc w).space = spTile then 300 else (mem w).latency p
    some (4 + 2 * cyc f (max (l m.op0) (l m.op1)) + cyc f (c.bytes m.op0) 1024 + twin)
  else if isUpdate oc then
    match c.plan.updates[opExt m.op1]?, s.tensor? d0.tensor with
    | some g, some t =>
      let traffic := s.hubTraffic c n.stage t.hub
      if 8928 * c.window ≤ traffic then none
      else
        let view := viewOf d0 m.op0 p 0
        let parts := d0.rows * d0.cols * g.moved t (oc = ocUpds) + 8 * t.cols * 8192 * partGranules view (oc = ocUpds)
        -- R_h = 8,928 − traffic / window
        some (lat m.op0 + cyc f (parts * c.window) (8 * t.cols * (8928 * c.window - traffic)) + twin)
    | _, _ => some 1
  else some 1

/-- A matrix macro-op in the pipeline: the release of its first and of its last unit, the cycles after which the next one's unit may follow,
and its end. -/
structure MxTime where
  first : Nat
  last : Nat
  gap : Nat
  finish : Nat
  deriving DecidableEq, Repr

/-- The times of a matrix macro-op issued at `start` with `holds` hold cycles (R101): a chain goes on max(M, 256) cycles after the last unit
of the macro-op before it, where it was in the queue by then. -/
def mxTime (m units drain start holds : Nat) (prev : Option MxTime) : MxTime :=
  let first := match prev with
    | none => start + 260
    | some p => if start ≤ p.last then p.last + p.gap else max (start + 260) (p.last + p.gap)
  let last := first + (units - 1) * max m 256 + holds
  { first, last, gap := max m 256, finish := last + m + drain }

/-- The times of a matrix macro-op; none for another. -/
def Pricing.mxTimes (c : Pricing) (n : Node) (start holds : Nat) (prev : Option MxTime) : Option MxTime :=
  if opUnit n.op.opcode = some .mx then
    let a := c.desc n.op.op.op1
    let u := mmaUnits a.cols (c.desc n.op.op.op2).cols (a.fmt = 0) n.op.op.pass.toNat
    some (mxTime a.rows u (if n.op.opcode = ocMma then 109 else 117) start holds prev)
  else none

/-- The end of a macro-op that starts at `start`; those of MX have times of their own. -/
def State.finishOf (s : State) (c : Pricing) (n : Node) (start : Nat) : Nat :=
  let m := n.op.op
  let oc := n.op.opcode
  let twin := if c.plan.twin then 8 else 0
  if oc = ocSend || (oc = ocCred && !opLocal m) then
    match c.plan.circuitOf m with
    | none => unbounded
    | some x =>
      let read := ceilDiv (c.bytes (if oc = ocSend then m.op1 else m.op2)) 256
      if (c.slotsFor x n).isEmpty || c.slotStart x n < start + read + twin then unbounded else c.slotEnd x
  else if oc = ocRecv then
    match c.plan.circuitOf m with
    | none => unbounded
    | some x => max start (c.slotEnd x) + ceilDiv (c.bytes m.op0) 256
  else
    match s.duration c n with
    | none => unbounded
    | some d => start + d

/-! ## The longest path (R159) -/

/-- The start and the end of a macro-op, and those along the longest path to it that touches HBM. -/
structure NodeTime where
  start : Nat
  finish : Nat
  hbm : Option (Nat × Nat)
  /-- Of a matrix macro-op: its times in the pipeline. -/
  mx : Option MxTime := none
  deriving DecidableEq, Repr

/-- The macro-op touches HBM. -/
def Pricing.touchesHbm (c : Pricing) (n : Node) : Bool :=
  n.op.views.any fun v =>
    let sp := (c.desc v.w).space
    sp = spSpread || sp = spNear || sp = spConst || sp = spSheet

/-- The strand has a FRAME_END in the frame (R150). -/
def Pricing.endsFrame (c : Pricing) (role block t : Nat) : Bool := (c.v.cutsOf role block t).any fun x => x.1 = c.frame

/-- Macro-ops issued earlier on the core by the rotation of R60, FRAME_ENDs among them. -/
def Pricing.issueIndex (c : Pricing) (n : Node) : Nat :=
  let core := c.nodes.filter fun x => x.stage = n.stage && x.core = n.core
  let k := (core.filter fun x => x.strand = n.strand && x.idx < n.idx).length
  ((List.range 64).map fun t =>
    let len := (core.filter fun x => x.strand = t).length + if c.endsFrame n.role n.block t then 1 else 0
    if t = n.strand then k else min len (k + if t < n.strand then 1 else 0)).sum

/-- The place of a node in its strand's native code (R79). -/
def Pricing.nativeIndex (c : Pricing) (n : Node) : Nat :=
  n.idx + ((c.v.cutsOf n.role n.block n.strand).filter fun x => x.1 < c.frame).length

/-- The wait for the code line that a node uses first, with four refills outstanding (R81). -/
def Pricing.refillWait (c : Pricing) (n : Node) : Nat :=
  if c.nativeIndex n % 64 ≠ 0 then 0
  else
    let k := (c.nodes.filter fun x => x.stage = n.stage && x.core = n.core && c.nativeIndex x % 64 = 0 && x.strand < n.strand).length
    (k / 4 + 1) * (cyc c.clock 300 + 8)

/-- One pass over the graph: every node's times from those of the nodes before it. -/
def State.timesFrom (s : State) (c : Pricing) (g : Graph) (fixed : List (Nat × Nat)) (holds : List Nat) (r : List NodeTime) :
    List NodeTime :=
  let preds := g.nodes.zip (g.issue.zip (g.done.zip g.unit))
  preds.zipIdx.map fun e =>
    let n := e.1.1
    let is := e.1.2.1
    let inMx := opUnit n.op.opcode = some .mx
    -- a matrix macro-op does not wait for the one before it to end: their units follow one another
    let us := e.1.2.2.2
    let ds := e.1.2.2.1 ++ if inMx then [] else us
    let (index, refill) := fixed.getD e.2 (0, 0)
    let get := fun (y : Nat) => r.getD y ⟨0, 0, none, none⟩
    let start := (ds.foldl (fun m y => max m (get y).finish) (is.foldl (fun m y => max m ((get y).start + 1)) index)) + refill
    let mx := c.mxTimes n start (holds.getD e.2 0) (us.findSome? fun y => (get y).mx)
    let ends := fun (st : Nat) =>
      match c.mxTimes n st (holds.getD e.2 0) none with
      | some x => x.finish
      | none => s.finishOf c n st
    let finish := match mx with
      | some x => x.finish
      | none => s.finishOf c n start
    let hs := (is.filterMap fun y => (get y).hbm.map fun x => x.1 + 1) ++ ds.filterMap fun y => (get y).hbm.map fun x => x.2
    let hbm :=
      if c.touchesHbm n || (inMx && us.any fun y => (get y).hbm.isSome) then some (start, finish)
      else if hs.isEmpty then none
      else
        let st := hs.foldl max 0 + refill
        some (st, min finish (ends st))
    ⟨start, finish, hbm, mx⟩

def State.times (s : State) (c : Pricing) (g : Graph) (holds : List Nat) : List NodeTime :=
  let fixed := g.nodes.map fun n => (c.issueIndex n, c.refillWait n)
  settle (s.timesFrom c g fixed holds) (2 * g.nodes.length + 2) (g.nodes.map fun _ => ⟨0, 0, none, none⟩)

/-- The class-0 lines that land in a core's tile store, with the cycles in which they do (R159). -/
def State.landings (s : State) (c : Pricing) (g : Graph) (ts : List NodeTime) (stage core : Nat) : List (Nat × Nat × Nat) :=
  let slots := c.v.slots.filterMap fun e =>
    (c.plan.circuits.find? fun x => x.id = e.circuit && x.mode ≠ 2 && x.dstCore = core).bind fun x =>
      if e.frame = c.frame then
        some (fabricCyc c.clock (x.hopStart e x.hops), fabricCyc c.clock (x.hopStart e x.hops + x.slotLen e.payload), ceilDiv e.payload 64)
      else none
  let ops := (g.nodes.zip ts).filterMap fun e =>
    let m := e.1.op.op
    let here := e.1.stage = stage && e.1.core = core
    let lines := fun (w : BitVec 64) =>
      let b := c.bytes w
      some (e.2.finish - cyc c.clock b (s.routeOf m.op2).2, e.2.finish, ceilDiv b 64)
    if e.1.op.opcode = ocPut && e.1.stage = stage && tgtRel m.op2 && tgtCore m.op2 = core && (c.desc m.op0).space = spTile then lines m.op1
    else if e.1.op.opcode = ocGet && here then lines m.op0
    else if e.1.op.opcode = ocCred && !opLocal m && here then some (e.2.start, e.2.finish, ceilDiv (c.bytes m.op0) 64)
    else none
  slots ++ ops

/-- The lines of a landing of `n` lines from `a` to `b` that have landed by `t`: they land evenly. -/
def landedBy (a b n t : Nat) : Nat := if b ≤ t then n else if t ≤ a then 0 else min n ((t - a) * n / (b - a))

/-- The holds of a matrix macro-op: L0 − 16, where L0 counts the lines that land from its first unit's release to its last row's write
(R90, R159). -/
def State.holdsOf (s : State) (c : Pricing) (g : Graph) (ts : List NodeTime) (n : Node) (t : NodeTime) : Nat :=
  match t.mx with
  | none => 0
  | some x =>
    let l0 := (s.landings c g ts n.stage n.core).map fun l => landedBy l.1 l.2.1 l.2.2 (t.finish - 6) - landedBy l.1 l.2.1 l.2.2 (x.first - 1)
    l0.sum - 16

/-- The predicted times of a frame's macro-ops, with the holds of the matrix unit. -/
def State.predicted (s : State) (c : Pricing) (g : Graph) : List (Node × NodeTime) :=
  let t0 := s.times c g (g.nodes.map fun _ => 0)
  g.nodes.zip (s.times c g ((g.nodes.zip t0).map fun e => s.holdsOf c g t0 e.1 e.2))

/-- The end of a macro-op, with the retraining allowance on the longest path that touches HBM (R159). -/
def Pricing.endOf (c : Pricing) (finish : Nat) (hbm : Option Nat) : Nat :=
  max finish (match hbm with
    | some x => x + cyc c.clock 2000
    | none => 0)

/-- The FRAME_END of a strand: it issues after the strand's last macro-op, waits for its code line where it is the first of one, and ends when the
strand's macro-ops have (R61, R79, R158). -/
def Pricing.frameEnd (c : Pricing) (role block t : Nat) (l : List NodeTime) : Nat :=
  let upTo := (c.v.cutsOf role block t).filter fun x => x.1 ≤ c.frame
  let refill := if ((upTo.map fun x => x.2).sum + upTo.length - 1) % 64 = 0 then cyc c.clock 300 + 8 else 0
  let ending := fun (ts : List (Nat × Nat)) => ts.foldl (fun a x => max a (max (x.1 + 1 + refill) x.2)) refill + 1
  let hbm := l.filterMap fun x => x.hbm
  c.endOf (ending (l.map fun x => (x.start, x.finish))) (if hbm.isEmpty then none else some (ending hbm))

/-- The longest path of a frame over the macro-ops of stage `stage`, FRAME_ENDs among them, in array cycles. -/
def State.longestPath (s : State) (c : Pricing) (g : Graph) (stage : Nat) : Nat :=
  let times := (s.predicted c g).filter fun e => e.1.stage = stage
  let role := c.plan.roleAt stage
  let ends := (List.range 120).flatMap fun n =>
    match (c.plan.code[role]?).bind fun x => x.cores.getD n none with
    | none => []
    | some b => ((List.range 64).filter (c.endsFrame role b)).map fun t =>
        c.frameEnd role b t ((times.filter fun e => e.1.core = n && e.1.strand = t).map fun e => e.2)
  (times.map (fun e => c.endOf e.2.finish (e.2.hbm.map fun x => x.2)) ++ ends).foldl max 0

/-- P − G of the binding. -/
def State.workWindow (s : State) : Nat :=
  match s.job.bind with
  | some b => b.period - b.guardNs
  | none => 0

/-- The stage index whose macro-ops are priced. -/
def State.pricedStage (s : State) (p : Plan) : Nat := if p.roles = 1 then 0 else (s.stageOn p.roleAxis).getD 0

def State.pricingOf (s : State) (p : Plan) (v : Variant) (f : Nat) : Pricing :=
  { plan := p, v, frame := f, nodes := p.nodes v f, window := s.workWindow }

/-- W_c of a frame in array cycles: the larger of the loader's own and PRED_NS (R159). -/
def State.frameTime (s : State) (p : Plan) (v : Variant) (f : Nat) : Nat :=
  let own := s.longestPath (s.pricingOf p v f) (s.frameGraph p v f).1 (s.pricedStage p)
  min (max own (cyc (contourClock v.contour) v.predNs)) (unbounded - 1)

/-- W_c of every frame of every variant. -/
def State.frameTimes (s : State) (p : Plan) : List (Nat × List Nat) :=
  p.variants.map fun v => (v.contour, (List.range v.frames).map (s.frameTime p v))

/-- `w` array cycles and `extra` ns fit into the work window. -/
def State.fitsWindow (s : State) (contour w extra : Nat) : Bool :=
  100 * w + extra * contourClock contour ≤ s.workWindow * contourClock contour

/-- Headroom frames of every variant (R159). -/
def State.headroomOf (s : State) (times : List (Nat × List Nat)) : List (Nat × List Bool) :=
  times.map fun e => (e.1, e.2.map fun w => s.fitsWindow e.1 w 2100)

/-- Every slot window of a variant ends by P − G. -/
def State.slotsFit (s : State) (p : Plan) (v : Variant) : Bool :=
  v.slots.all fun e => p.circuits.all fun x => x.id ≠ e.circuit || x.slotEnd e * 64 ≤ s.workWindow * 100

/-- Frame fit (R159). -/
def State.framesFit (s : State) (p : Plan) : Bool :=
  ((s.frameTimes p).all fun e => e.2.all fun w => s.fitsWindow e.1 w 0) && p.variants.all (s.slotsFit p)

end Sys2Proof.Machine
end

