-- ==== Sys2Proof/Machine/Circuits.lean ====
section
/-! DEFINITION. Circuit slots on the links: which slots a module carries in a frame (R147, R148, R243), the links they take (R242),
and SLOT_OVERLAP (R244). Times are fabric cycles after the frame's tick. -/
namespace Sys2Proof.Machine

/-! ## Modules along a bearing -/

/-- The place of a coordinate in the job; none outside it. -/
def State.placeOf (s : State) (c : BitVec 48) : Option ChartPlace :=
  match s.topo.chart, s.topo.gaz with
  | some x, some g => x.place g c
  | _, _ => none

/-- The role that a module of the job runs (R151). -/
def State.roleOf (s : State) (p : Plan) (c : BitVec 48) : Option Nat :=
  if p.roles = 1 then some 0
  else
    match s.topo.chart, s.topo.gaz with
    | some x, some g =>
      let n := g.rings.size p.roleAxis
      let i := if x.rank then coordAt c p.roleAxis else (coordAt c p.roleAxis + n - (x.axis p.roleAxis).origin % n) % n
      p.roleMap[i]?
    | _, _ => none

/-- The macro-ops of frame `f` that send on a circuit of the plan, in strand order. -/
def Plan.sends (p : Plan) (v : Variant) (f role : Nat) (x : Circuit) : List RawOp :=
  match (p.code[role]?).bind fun r => r.cores.getD x.srcCore none with
  | none => []
  | some b => (List.range 64).flatMap fun t =>
      ((p.frameOps v role b t f).map fun e => e.1).filter fun o =>
        (o.opcode = ocSend || (o.opcode = ocCred && !opLocal o.op)) && opExt o.op.op0 = x.id

/-- The CRED circuits among which a plan splits the slices of the level that circuit `x` serves, in table order (R271). -/
def Plan.levelCircuits (p : Plan) (x : Circuit) : List Nat :=
  (p.circuits.filter fun y => y.mode = 2 && y.bearing / 2 = x.bearing / 2 && y.hops = x.hops).map fun y => y.id

/-- The bearing on which the module at `c` sends on a circuit: toward its partner for a CRED pair (R146, R148). Where the ladder distance is
half a ring axis, two circuits of a level go one in + and the other in − (R271; log entry 125: first and second by their place in the table). -/
def State.sendBearing (s : State) (p : Plan) (x : Circuit) (o : RawOp) (c : BitVec 48) : Option Nat :=
  if x.mode ≠ 2 then some x.bearing
  else
    match s.placeOf c, s.topo.chart, s.topo.gaz with
    | some pl, some ch, some g => (pl.partners[opExt o.op.op1 - ch.spmLog2]?).map fun e =>
        match p.levelCircuits x with
        | first :: _ :: _ => if 2 * x.hops = g.rings.size (x.bearing / 2) && !g.rings.isLine (x.bearing / 2) then x.bearing / 2 * 2 + (if x.id = first then 0 else 1) else e.1
        | _ => e.1
    | _, _, _ => none

/-! ## Spans (R240, R243) -/

/-- A slot on one hop: its circuit, its entry and index among the circuit's slots of the frame, the hop, and the macro-ops of its source. -/
structure Span where
  circuit : Circuit
  entry : SlotEntry
  window : Nat
  hop : Nat
  ops : List RawOp
  deriving DecidableEq, Repr

def Span.start (x : Span) : Nat := x.circuit.hopStart x.entry x.hop
def Span.len (x : Span) : Nat := x.circuit.slotLen x.entry.payload

/-- The slots that the module at `own` transmits on bearing `b` in frame `f` of a variant: its own and those it forwards. -/
def State.spansFrom (s : State) (p : Plan) (v : Variant) (f b : Nat) (own : BitVec 48) : List Span :=
  match s.topo.gaz with
  | none => []
  | some g =>
    let far := (p.circuits.map fun x => x.hops).foldl max 0
    (List.range far).flatMap fun k =>
      match g.rings.walk (opposite b) k own with
      | none => []
      | some c =>
        match s.placeOf c, s.roleOf p c with
        | some _, some role => p.circuits.flatMap fun x =>
            if x.hops ≤ k then []
            else
              match p.sends v f role x with
              | [] => []
              | o :: t =>
                if s.sendBearing p x o c = some b then
                  (v.slotsIn f x.id).zipIdx.map fun e => { circuit := x, entry := e.1, window := e.2, hop := k + 1, ops := o :: t }
                else []
        | _, _ => []

/-- The slots that this module transmits on bearing `b`. -/
def State.spansOut (s : State) (p : Plan) (v : Variant) (f b : Nat) : List Span := s.spansFrom p v f b s.ownCoord

/-- The slots that travel along bearing `b` into this module. -/
def State.spansIn (s : State) (p : Plan) (v : Variant) (f b : Nat) : List Span :=
  match s.topo.gaz with
  | none => []
  | some g =>
    match g.rings.step (opposite b) s.ownCoord with
    | none => []
    | some c => s.spansFrom p v f b c

/-! ## Links (R242) -/

/-- Spans in the order in which circuits are placed. -/
def placeOrder (l : List Span) : List Span :=
  l.foldl
    (fun l e =>
      let before := fun (x : Span) => x.circuit.id < e.circuit.id || (x.circuit.id = e.circuit.id && x.start ≤ e.start)
      l.takeWhile before ++ e :: l.dropWhile before) []

/-- The links with free units that a slot of `w` units takes; none where they fall short. -/
def takeUnits : Nat → List (Nat × Nat) → Option (List Nat)
  | 0, _ => some []
  | _, [] => none
  | w, (n, u) :: t => (takeUnits (w - u) t).map fun l => n :: l

/-- Two spans, with their guards, share a cycle. -/
def Span.meets (a b : Span) : Bool := decide (a.start < b.start + b.len + 64) && decide (b.start < a.start + a.len + 64)

/-- The links of every span on a port, given as (link, units); none where R242 finds too few free units for one. -/
def placeSpans (links : List (Nat × Nat)) (l : List Span) : Option (List (Span × List Nat)) :=
  (placeOrder l).foldl
    (fun (acc : Option (List (Span × List Nat))) x =>
      acc.bind fun placed =>
        let busy := (placed.filter fun y => y.1.meets x).flatMap fun y => y.2
        (takeUnits x.circuit.units (links.filter fun n => !busy.contains n.1)).map fun ls => placed ++ [(x, ls)])
    (some [])

/-- The bonded links of the port at bearing `b` with their units. -/
def State.linksAt (s : State) (b : Nat) : List (Nat × Nat) :=
  match s.portAt b with
  | none => []
  | some q => (s.bondedLinks q).map fun n => (n, (s.link n).units)

/-- The links of the spans that leave on bearing `b`. -/
def State.placedOut (s : State) (p : Plan) (v : Variant) (f b : Nat) : Option (List (Span × List Nat)) :=
  placeSpans (s.linksAt b) (s.spansOut p v f b)

/-! ## Slot buffers and SLOT_OVERLAP (R244) -/

/-- The predicted end of the macro-op that takes a circuit's slot in frame `f`, in fabric cycles (R158, R244): its RECV, or the CRED of the
level; the slot's own end where none does. -/
def State.recvEnd (s : State) (p : Plan) (v : Variant) (f : Nat) (x : Span) : Nat :=
  let c := s.pricingOf p v f
  let takes := fun (o : RawOp) => (o.opcode = ocRecv || (o.opcode = ocCred && !opLocal o.op)) && opExt o.op.op0 = x.circuit.id
  let ends := (s.predicted c (s.frameGraph p v f).1).filterMap fun e =>
    if takes e.1.op && e.1.stage = s.pricedStage p then some (ceilDiv (e.2.finish * 10000) (64 * c.clock)) else none
  ends.foldl max (x.start + x.len)

/-- From when to when a slot holds the slot buffer of its incoming link: in transit until its next hop has read it out (R243), in RECV mode
until its RECV has it (R144), in CRED mode until the CRED that receives it has it, else while it arrives. -/
def State.slotHold (s : State) (p : Plan) (v : Variant) (f : Nat) (x : Span) : Nat × Nat :=
  (x.start,
    if x.hop < x.circuit.hops then x.start + x.len + 104 + x.len
    else if x.circuit.mode = 0 then x.start + x.len
    else s.recvEnd p v f x)

/-- No two slots of one link hold its buffer at once. -/
def holdsClear : List (List Nat × Nat × Nat) → Bool
  | [] => true
  | a :: t => t.all (fun b => !(a.1.any b.1.contains) || decide (a.2.2 ≤ b.2.1) || decide (b.2.2 ≤ a.2.1)) && holdsClear t

/-- A variant's slots fit the outgoing links and the slot buffers in every frame. What overlaps on an incoming link is refused by the module
that sends there. -/
def State.slotsClear (s : State) (p : Plan) (v : Variant) : Bool :=
  (List.range v.frames).all fun f => (List.range 12).all fun b =>
    (s.placedOut p v f b).isSome &&
      match placeSpans (s.linksAt (opposite b)) (s.spansIn p v f b) with
      | none => true
      | some l => holdsClear (l.map fun e => (e.2, s.slotHold p v f e.1))

/-! ## The running plan -/

/-- The macro-op and the position in its bytes at which window `w` of its circuit's frame begins: the source's macro-ops fill the
circuit's slots one after the other. -/
def Span.target (x : Span) (v : Variant) (bytes : RawOp → Nat) : Option (RawOp × Nat) :=
  let sizes := (v.slotsIn x.entry.frame x.circuit.id).map fun e => e.payload
  let rec go : List RawOp → Nat → List Nat → Option (RawOp × Nat)
    | [], _, _ => none
    | _, _, [] => none
    | o :: t, at_, n :: rest =>
      if rest.length + x.window + 1 = sizes.length then some (o, at_)
      else if bytes o ≤ at_ + n then go t 0 rest
      else go (o :: t) (at_ + n) rest
  go x.ops 0 sizes

end Sys2Proof.Machine
end

