-- ==== Sys2Proof/Machine/Router.lean ====
section
/-! DEFINITION. The router's rows: PACKET_ARRIVAL (R245, R251 to R256), PACKET_SEND with the output's choice of packet and link (R240, R253, R257,
R258, R261, R262), and CREDIT_FLIT (R257). -/
namespace Sys2Proof.Machine

/-! ## PACKET_ARRIVAL -/

def packetArrival (port : Fin 12) (p : Packet) (adaptive : Bool) (s : State) : State :=
  let q := s.port port.val
  let vc := p.vc.toNat
  let b := some (port.val, adaptive)
  if !q.state.bonded then s
  else
    let s := s.onOut port.val (OutPort.takeBuffer vc adaptive)
    if !packetHeaderOk p then
      ((s.onRouter fun r => { r with hcrcErrors := satInc r.hcrcErrors }).fault .headerCrc (srcLinkDie (s.portDie port.val))).freeBuffer vc b
    else if p.type = 0 || 8 ≤ p.type.toNat then s.freeBuffer vc b
    else if p.type = 6 then
      if p.vc = 3 && decide (p.payload.length ≤ 256) then
        (s.onRouter fun r => { r with ejected := satInc r.ejected }).replicate (some q.bearing.toNat) b p
      else s.freeBuffer vc b
    else s.route (some q.bearing.toNat) b p

/-- PACKET_ARRIVAL (R245, R251 to R256): the packet takes a buffer of the port's input until it leaves. -/
def execPacketArrival (port : Fin 12) (p : Inbound) (s : State) : Out := commit s (packetArrival port p.packet p.adaptive s)

/-! ## The output's choice of a packet (R261, R262) -/

/-- Virtual channels in class order (R239). -/
def classOrder : List Nat := [3, 1, 0, 2]

/-- Who asks for the output: an input port, 12 for this module's own packets, 13 for the replication buffer. -/
def Staged.requester (x : Staged) : Nat :=
  match x.copy, x.buffer with
  | some _, _ => 13
  | none, some b => b.1
  | none, none => 12

/-- The packet of a class that is granted: of the first requester after the last one granted in the class, its oldest (R261). -/
def OutPort.granting (o : OutPort) (vc : Nat) : Option Staged :=
  ((List.range 14).map fun i => (o.granted.getD vc 0 + 1 + i) % 14).findSome? fun r =>
    o.staged.find? fun x => x.packet.vc.toNat = vc && x.requester = r

/-- The packet of each class that asks for the link, in the order in which the transmitter takes the classes: a class that has waited for 15
packets comes first (R262). -/
def State.candidates (s : State) (q : Nat) : List (Nat × Staged) :=
  let o := s.out q
  let first := classOrder.filterMap fun vc => (o.granting vc).map fun x => (vc, x)
  let (due, rest) := first.partition fun x => decide (15 ≤ o.starved.getD x.1 0)
  due ++ rest

/-- The counts of waiting classes after a packet of class `vc` has left (R262). -/
def starvedAfter (staged : List Staged) (vc : Nat) (l : List Nat) : List Nat :=
  let below := (classOrder.dropWhile fun c => c ≠ vc).drop 1
  (List.range 4).map fun c =>
    if below.contains c && staged.any fun e => e.packet.vc.toNat = c then l.getD c 0 + 1 else if below.contains c then l.getD c 0 else 0

/-! ## Credits (R257, R258) -/

/-- The bearing of port `q` is a staged packet's deterministic step. -/
def State.onDetStep (s : State) (q : Nat) (x : Staged) : Bool :=
  detStep s.rings s.ownCoord x.from_ x.packet == some (s.port q).bearing.toNat || x.packet.type = 6

/-- A staged packet may ask for an adaptive buffer behind port `q`: its bearing reduces an offset whose axis the packet has not reversed, and the
packet neither is ordered nor came into an escape buffer (R252). -/
def State.adaptsAt (s : State) (q : Nat) (x : Staged) : Bool :=
  let b := (s.port q).bearing.toNat
  let p := x.packet
  !p.ordered && decide (p.vc.toNat < 2) && !(x.buffer.any fun e => !e.2) && (s.rings.reducing s.ownCoord p.coord).contains b && !p.reversed.getLsbD (b / 2)

/-- The pools a staged packet asks for behind port `q`: adaptive, and escape on its deterministic step (R252). -/
def State.asksFor (s : State) (q : Nat) (x : Staged) : List Bool :=
  (if s.adaptsAt q x then [true] else []) ++ if s.onDetStep q x then [false] else []

/-- Free buffers of a pool downstream. -/
def OutPort.free (o : OutPort) (vc : Nat) (adaptive : Bool) : Nat := if adaptive then o.adp.getD vc 0 else o.esc.getD vc 0

/-- The pool a staged packet may take now: adaptive, escape or none (R252, R257, R258). -/
def State.creditFor (s : State) (q : Nat) (x : Staged) : Option Bool :=
  (s.asksFor q x).find? fun a => decide (bubble x.entering ≤ (s.out q).free x.packet.vc.toNat a)

/-- A packet that enters a ring waits for the second buffer of a pool it asks for (R258). -/
def State.bubbleWaits (s : State) (q : Nat) (x : Staged) : Bool :=
  x.entering && (s.creditFor q x).isNone && (s.asksFor q x).any fun a => (s.out q).free x.packet.vc.toNat a == 1

/-- A staged packet without credit asks again: for an adaptive buffer of another port, or else on its deterministic step (R252). -/
def State.reroute (q : Nat) (s : State) (x : Staged) : State :=
  let out := s.onOut q fun o => { o with staged := dropFirst (fun y => y = x) o.staged }
  match s.adaptiveStep s.ownCoord x with
  | some (b, t) => if t = q then s else out.stage t { x with entering := entersRing x.from_ b, adaptive := true }
  | none => if s.onDetStep q x then s else out.stepOn { x with adaptive := false }

/-- Every packet without credit at a port asks again (log entry 39). -/
def State.rerouteAll (q : Nat) (s : State) : State :=
  s.each ((s.out q).staged.filter fun x => x.packet.type ≠ 6 && (s.creditFor q x).isNone) (State.reroute q)

/-! ## Links (R253, R240) -/

/-- Bytes still to be sent on a link, in units of 64 bytes: what its transmitter is busy with, or what waits behind a full retry buffer. -/
def State.queuedOn (s : State) (n : Nat) : Nat :=
  let l := s.link n
  max ((l.busyUntil - 100 * s.clock.meridian) * l.units / 64) ((l.unsent.map fun g => g.data.length).sum / 64)

/-- The link that a packet takes in a port (R253); a link that retrains carries no data (R225). -/
def State.linkFor (s : State) (q : Nat) (p : Packet) : Option Nat :=
  let ls := s.bondedLinks q
  if p.ordered then
    let dest := ((s.topo.gaz.bind fun g => g.rankAt p.coord).getD 0)
    ls[(p.srcRank.toNat + dest) % max 1 ls.length]?.filter fun n => (s.link n).state == .up
  else
    (ls.filter fun n => (s.link n).state == .up).foldl
      (fun (a : Option Nat) n =>
        match a with
        | none => some n
        | some m => if s.queuedOn n < s.queuedOn m then some n else a) none

/-- The dispatch of the frame after the one in progress. -/
def State.nextDispatch (s : State) : Option Dispatch := s.job.dispatches.find? fun d => s.covers d (s.job.now + 1)

/-- Slots that wait to be forwarded on a link: transmit start in 0.01 ns, and length in fabric cycles (R240, R243). -/
def State.heldSpans (s : State) (link : Nat) : List (Nat × Nat) :=
  s.router.slotBuf.filterMap fun h => h.forward.bind fun e =>
    if e.1.contains link then some (e.2, ceilDiv (h.slot.payload.length + 32) (64 * max 1 (e.1.map fun n => (s.link n).units).sum)) else none

/-- Spans of slots that leave on a link of bearing `b`, as start and length in fabric cycles after the tick: of the plan in the frame in
progress, of the plan in the next frame, and of slots that wait to be forwarded (R240, R243). -/
def State.spansOn (s : State) (b link : Nat) : List (Nat × Nat) :=
  let of := fun (r : Resident) (v : Variant) (f shift : Nat) =>
    (((s.placedOut r.plan v f b).getD []).filter fun x => x.2.contains link).map fun x => (x.1.start + shift, x.1.len)
  let now := match s.runningPlan with
    | some (r, v, f) => of r v f 0
    | none => []
  let next := match s.nextDispatch, s.job.bind with
    | some d, some bd =>
      match s.planOf d, s.variantOf d with
      | some r, some v => of r v (s.job.now + 1 - d.first) (bd.period * 100 / 64)
      | _, _ => []
    | _, _ => []
  now ++ next ++ (s.heldSpans link).map fun e => ((e.1 - 100 * s.job.tickAt) / 64, e.2)

/-- A packet started on a link as soon as it is free would run into a span, or begin in the trailing guard of one (R240). -/
def State.meetsSpan (s : State) (b link : Nat) (p : Packet) : Bool :=
  let l := s.link link
  let start := max l.busyUntil (100 * s.clock.meridian)
  let now := (start - 100 * s.job.tickAt) / 64
  let len := packetCycles p l.units
  decide (start < l.guardUntil) || (s.spansOn b link).any fun x => decide (x.1 < now + len + 32) && decide (now < x.1 + x.2 + 32)

/-! ## PACKET_SEND -/

/-- A packet leaves on a link: it takes its buffer's credit downstream and gives up what it held here. -/
def State.depart (q link : Nat) (x : Staged) (adaptive : Bool) (s : State) : State :=
  let vc := x.packet.vc.toNat
  let s := s.onOut q fun o =>
    let staged := dropFirst (fun y => y = x) o.staged
    { o with
      staged, txPackets := satInc o.txPackets, starved := starvedAfter staged vc o.starved, granted := setAt vc x.requester o.granted
      adp := if adaptive then setAt vc (o.adp.getD vc 0 - 1) o.adp else o.adp
      esc := if adaptive then o.esc else setAt vc (o.esc.getD vc 0 - 1) o.esc }
  ((s.transmit link (.packet x.packet x.from_) (packetBytes x.packet) (100 * s.clock.meridian) (packetCycles x.packet (s.link link).units)).freeBuffer vc
    x.buffer).copyLeft x.copy

/-- The wait counters of an attempt with these candidates (R258, R264; log entry 39). -/
def State.countWaits (q : Nat) (cs : List (Nat × Staged)) (s : State) : State :=
  let t := if cs.any fun x => s.bubbleWaits q x.2 then s.onRouter fun r => { r with bubbleWaits := satInc r.bubbleWaits } else s
  if cs.any fun x => (s.creditFor q x.2).isNone then t.onOut q fun o => { o with creditStalls := satInc o.creditStalls } else t

/-- One attempt of a port's transmitter; a cycle in which something must wait is counted (log entry 39). -/
def packetSend (port : Fin 12) (s : State) : State :=
  let q := port.val
  if !(s.port q).state.bonded then s.flushPort q
  else
    let s := (s.countWaits q (s.candidates q)).rerouteAll q
    match (s.candidates q).findSome? fun x => (s.creditFor q x.2).bind fun a => (s.linkFor q x.2.packet).map fun n => (x.2, a, n) with
    | some (x, adaptive, link) =>
      if s.meetsSpan (s.port q).bearing.toNat link x.packet then s.onOut q fun o => { o with spanIdle := satInc o.spanIdle }
      else s.depart q link x adaptive
    | none => s

/-- PACKET_SEND (R240, R253, R257, R258, R261, R262). -/
def execPacketSend (port : Fin 12) (s : State) : Out := commit s (packetSend port s)

def creditFlit (port : Fin 12) (escFree : BitVec 8) (adpFree : BitVec 4) (s : State) : State :=
  if (s.port port.val).state.bonded then
    s.onOut port.val fun o =>
      { o with esc := (List.range 4).map fun v => natBits escFree.toNat (2 * v + 1) (2 * v)
               adp := (List.range 2).map fun v => natBits adpFree.toNat (2 * v + 1) (2 * v) }
  else s

/-- CREDIT_FLIT (R257). -/
def execCreditFlit (port : Fin 12) (escFree : BitVec 8) (adpFree : BitVec 4) (s : State) : Out :=
  commit s (creditFlit port escFree adpFree s)

end Sys2Proof.Machine
end

