-- ==== Sys2Proof/Machine/Data.lean ====
section
/-! DEFINITION. Mailbox 2 (R404, R405): the memory layout, arenas, tensors, WRITE and READ, and the gateway's settings. -/
namespace Sys2Proof.Machine

/-- No target rank: this module. -/
def noRank : Nat := 0xFFFFFFFF

/-! ## Layout, arenas, tensors -/

def memoryLayout (c : Cmd) (rs : Word) (s : State) : State :=
  s.command 2 0x0201 c false fun s =>
    if s.job.bind.isSome then s.finish 2 c 0x0201
    else if 520192 < rs.toNat || rs.toNat % 4096 ≠ 0 then s.finish 2 c 0x011C
    else (s.onRowSplit fun _ => rs.toNat).finish 2 c 0

/-- MEMORY_LAYOUT (R190, R404). -/
def execMemoryLayout (c : Cmd) (rs : Word) (s : State) : Out := commit s (memoryLayout c rs s)

/-- Bytes of the spread range (R190). -/
def State.spreadBytes (s : State) : Nat := 744 * s.rowSplit * 4096

/-- The arena in its space, replacing the one set before. -/
def Arenas.put (space hub n : Nat) (a : Arenas) : Arenas :=
  if space = 1 then { a with spread := some n }
  else if space = 2 then { a with near := Tab.set 0 hub n a.near }
  else { a with inset := some (hub, n) }

def arenaSet (c : Cmd) (space hub : Byte) (bytes : BitVec 64) (s : State) : State :=
  s.command 2 0x0202 c false fun s =>
    let sp := space.toNat
    let h := hub.toNat
    let t := s.onJob fun j => { j with arenas := j.arenas.put sp h bytes.toNat }
    if s.job.bind.isNone then s.finish 2 c 0x0201
    else if (sp ≠ 1 && sp ≠ 2 && sp ≠ 6) || (sp ≠ 1 && 8 ≤ h) then s.finish 2 c 0x011C
    else if (if sp = 1 then s.spreadBytes < bytes.toNat else t.nearBytes < t.nearUsed h) then s.finish 2 c 0x0304
    else t.finish 2 c 0

/-- ARENA_SET (R404): refused where the arena does not fit its range. -/
def execArenaSet (c : Cmd) (space hub : Byte) (bytes : BitVec 64) (s : State) : Out := commit s (arenaSet c space hub bytes s)

/-- The registration that TENSOR_REGISTER describes. -/
def tensorOf (p : TensorParams) : Tensor :=
  { id := p.tensor.toNat, fmt := p.fmt.toNat, states := p.flags.toNat % 8, tableRows := p.flags.getLsbD 3, versioned := p.flags.getLsbD 4
    hub := p.hub.toNat, gradFmt := p.gradFmt.toNat, gradSpace := p.gradSpace.toNat, rows := p.rows.toNat, cols := p.cols.toNat
    gradOff := p.gradOff.toNat, gRows := p.gRows.toNat, nslots := p.nslotsM1.toNat + 1 }

/-- Every field of a registration is in range (R405). -/
def Tensor.inRange (t : Tensor) : Bool :=
  decide (1 ≤ t.id) && decide (t.fmt ≤ 0xC) && decide (t.states ≤ 4) && decide (t.hub < 8) && decide (t.gradFmt < 0xC) &&
    (t.gradSpace == spSpread || t.gradSpace == spNear) && decide (1 ≤ t.rows) && decide (t.rows ≤ 2 ^ 24) && decide (1 ≤ t.cols) &&
    decide (t.cols ≤ 2 ^ 20) && decide (t.nslots ≤ 4096)

/-- Bytes of a tensor's gradient buffers and the arena they lie in (R170, log entry 36). -/
def State.gradFits (s : State) (t : Tensor) : Bool :=
  let stride := roundUp (packedRow t.gradFmt t.cols) 64
  let n := t.nslots * s.shardSlots * (if t.tableRows then t.gRows else t.rows) * stride
  let arena := if t.gradSpace = spSpread then s.job.arenas.spread.getD 0 else Tab.get 0 t.hub s.job.arenas.near
  decide (t.gradOff + n ≤ arena)

/-- No block of a tensor's storage is poisoned. -/
def State.clearNear (id : Nat) (s : State) : State :=
  match s.tensorAt id with
  | none => s
  | some (base, t) =>
    let n := t.nearBytes s.shardSlots s.cartoucheBound
    s.onPoison fun p => p.filter fun e =>
      let (h, c, b) := hbmParts (64 * e.1)
      let o := s.nearOffset c (b / 64)
      !(decide (64 * e.1 < hbmEnd) && h == t.hub && decide (s.rowSplit ≤ b / 64) && decide (base ≤ o) && decide (o < base + n))

/-- The storage of a tensor's slices holds nothing and its directory is clear. -/
def State.clearTensor (id : Nat) (s : State) : State :=
  let lo := areaKey (dirKey id 0 0 0 0) 0
  let hi := areaKey (dirKey (id + 1) 0 0 0 0) 0
  let s := (s.onMem (Tab.clear lo hi)).clearNear id
  s.onDir fun d => d.filter fun e => (dirParts e.1).1 ≠ id

def tensorRegister (c : Cmd) (p : TensorParams) (s : State) : State :=
  s.command 2 0x0203 c false fun s =>
    let t := tensorOf p
    let s2 := s.onJob fun j => { j with tensors := j.tensors ++ [t] }
    if s.job.bind.isNone || s.topo.chart.isNone then s.finish 2 c 0x0201
    else if !t.inRange || (s.tensor? t.id).isSome then s.finish 2 c 0x011C
    else if !s.gradFits t || s2.nearBytes < s2.nearUsed t.hub then s.finish 2 c 0x0304
    else (s2.clearTensor t.id).finish 2 c 0

/-- TENSOR_REGISTER (R170, R313, R405, R425). -/
def execTensorRegister (c : Cmd) (p : TensorParams) (s : State) : Out := commit s (tensorRegister c p s)

def tensorUnregister (c : Cmd) (tensor : BitVec 16) (s : State) : State :=
  s.command 2 0x0204 c false fun s =>
    if s.job.bind.isNone || s.job.dispatched then s.finish 2 c 0x0201
    else if (s.tensor? tensor.toNat).isNone then s.finish 2 c 0x011C
    else ((s.clearTensor tensor.toNat).onJob fun j => { j with tensors := j.tensors.filter fun t => t.id ≠ tensor.toNat }).finish 2 c 0

/-- TENSOR_UNREGISTER (R404). -/
def execTensorUnregister (c : Cmd) (tensor : BitVec 16) (s : State) : Out := commit s (tensorUnregister c tensor s)

/-! ## WRITE and READ -/

/-- Where a transfer works: an area and offset, or a part of a slice. -/
inductive XferPlace where
  | area (a : Area) (off : Nat)
  | slice (t : Tensor) (slot variant off buddy : Nat)
  deriving DecidableEq, Repr

/-- The hub of a NEAR address: [55:48], with the offset in [47:0] (log entry 42). -/
def nearHub (base : BitVec 64) : Nat := natBits base.toNat 55 48

/-- The place of `n` bytes at an address, or the status that refuses it (R135, R404, R446). -/
def State.xferPlace (s : State) (a : MemAddr) (n : Nat) (reads buddy : Bool) : Except Nat XferPlace :=
  let b := a.base.toNat
  let sp := a.space.toNat
  let within := fun (x : Area) (off : Nat) =>
    if off + n ≤ s.areaSize x then .ok (XferPlace.area x off) else .error 0x0304
  if sp = spSpread then within .spread b
  else if sp = spNear then (if 8 ≤ nearHub a.base then .error 0x011C else within (.near (nearHub a.base)) (natBits b 47 0))
  else if sp = spHubc then
    (if 8 ≤ natBits b 39 32 then .error 0x011C else within (.hubc (natBits b 39 32)) (natBits b 24 0))
  else if sp = spSheet then
    match s.tensor? (natBits b 47 32) with
    | none => .error 0x0304
    | some t =>
      let part := a.part.toNat
      let off := natBits b 31 0
      if 5 < part || (1 ≤ part && part ≤ 4 && t.states < part) || s.shardSlots ≤ a.slot.toNat || t.nslots ≤ a.variantSlot.toNat then
        .error 0x011C
      else if (if reads then roundUp (t.partBytes part) 4096 else t.partBytes part) < off + n then .error 0x0304
      else .ok (.slice t a.slot.toNat a.variantSlot.toNat (t.partOffset part + off) buddy.toNat)
  else .error 0x011C

/-- What a check found while a transfer ran: 0x0403 where it could not be delivered (R360, R197). -/
def State.xferUpset (u : Upset) (s : State) : State × Option Nat :=
  match upsetFound u with
  | .pathParity _ _ => (s.fault .pathParity srcControl, some 0x0403)
  | .corrected b => (s.eccCorrected b, none)
  | .uncorrectable b => (s.readPoison b, some 0x0403)
  | _ => (s, none)

/-- The runs of keys of a transfer's place. -/
def State.xferKeys (s : State) (p : XferPlace) (n : Nat) : List (Nat × Nat) :=
  match p with
  | .area a off => (pieces off n).map fun x => (s.areaByteKey a x.1, x.2)
  | .slice t slot v off buddy => (pieces off n).map fun x => (s.currentKey (dirKey t.id slot v buddy (x.1 / 4096)) + x.1 % 4096, x.2)

/-- The first poisoned block that a read of a place meets. -/
def State.xferPoison (s : State) (p : XferPlace) (n : Nat) : Option Nat := s.poisonOf (s.xferKeys p n)

def State.xferRead (s : State) (p : XferPlace) (n : Nat) : Bytes :=
  match p with
  | .area a off => s.readArea a off n
  | .slice t slot v off buddy => s.readSheet t.id slot v buddy off n

def State.xferWrite (p : XferPlace) (data : Bytes) (s : State) : State :=
  match p with
  | .area a off => s.writeArea a off data
  | .slice t slot v off buddy => s.writeCurrent t.id slot v buddy off data

/-- The selector of a remote transfer: SPACE, slot, VARIANT, PART and BUDDY, which travel in REPLY_VIEW (log entry 41). -/
def selectorOf (a : MemAddr) (buddy : Bool) : BitVec 64 :=
  BitVec.ofNat 64 (a.space.toNat + a.slot.toNat * 2 ^ 8 + a.variantSlot.toNat * 2 ^ 16 + a.part.toNat * 2 ^ 32 + buddy.toNat * 2 ^ 40)

/-- The coordinate of a transfer's target rank; the status where there is none. -/
def State.xferTarget (s : State) (rank : Nat) : Except Nat (Gazetteer × BitVec 48) :=
  match s.topo.gaz with
  | none => .error 0x020A
  | some g =>
    match g.coord rank with
    | none => .error 0x011C
    | some dest => .ok (g, dest)

/-- A transfer with another module on VC2 (R239, R404, log entry 41): a WRITE ends with its landing acknowledgements, a READ with its
replies. What a check finds before it leaves ends it (R360). -/
def State.xferRemote (c : Cmd) (a : MemAddr) (data : Option Bytes) (buddy : Bool) (u : Upset) (s : State) : State :=
  match s.xferTarget a.target.toNat with
  | .error st => s.finish 2 c st
  | .ok (g, dest) =>
    match s.xferUpset u with
    | (s, some st) => s.finish 2 c st
    | (s, none) =>
      let id := s.router.nextMsg
      let n := c.length.toNat
      let p : Packet :=
        { type := if data.isSome then 1 else 2, vc := 2, jobTag := s.jobTag, coord := dest, srcRank := BitVec.ofNat 17 g.selfRank
          srcCore := 127, attempt := s.attemptTag, msgId := id, msgBytes := c.length, destView := a.base, replyView := selectorOf a buddy }
      let s := s.onRouter fun r =>
        { r with nextMsg := r.nextMsg + 1
                 transfers := r.transfers ++ [{ tag := c.tag, msgId := id, read := data.isNone, left := n, buffer := c.buffer }] }
      match data with
      | some d => s.each (cutMessage 4096 p d) fun s p => s.inject p
      | none => s.inject (sealPacket p)

def write (c : Cmd) (addr : MemAddr) (data : Bytes) (upset : Upset) (s : State) : State :=
  s.command 2 0x0205 c true fun s =>
    if addr.space.toNat = spSheet && s.job.dispatched then s.finish 2 c 0x0201
    else if addr.target.toNat ≠ noRank then s.xferRemote c addr (some data) false upset
    else
      match s.xferPlace addr data.length false false with
      | .error st => s.finish 2 c st
      | .ok p =>
        -- a stack past its critical temperature serves no request: the command stays outstanding (R205)
        if s.unserved (s.xferKeys p data.length) then s
        else
        match s.xferUpset upset with
        | (s, some st) => s.finish 2 c st
        | (s, none) => (s.xferWrite p data).finish 2 c 0

/-- WRITE (R404, R360). -/
def execWrite (c : Cmd) (addr : MemAddr) (data : Bytes) (upset : Upset) (s : State) : Out := commit s (write c addr data upset s)

/-- READ's work. Poison that the read meets ends it, beside what its row carried (R197); while a channel retrains it waits in the detour queue
(R200). -/
def State.hostRead (c : Cmd) (addr : MemAddr) (buddy : Bool) (upset : Upset) (s : State) : State :=
  let n := c.length.toNat
  if addr.target.toNat ≠ noRank then s.xferRemote c addr none buddy upset
  else
    match s.xferPlace addr n true buddy with
    | .error st => s.finish 2 c st
    | .ok p =>
      if s.unserved (s.xferKeys p n) then s
      else
        s.readOrPark (s.xferKeys p n) (fun hubs => .read hubs c addr buddy upset) fun s =>
          let (s, u) := s.joinPoison upset (s.xferPoison p n)
          match s.xferUpset u with
          | (s, some st) => s.finish 2 c st
          | (s, none) => s.finishWith 2 c (s.xferRead p n)

def read (c : Cmd) (addr : MemAddr) (buddy : Bool) (upset : Upset) (s : State) : State := s.command 2 0x0206 c false (State.hostRead c addr buddy upset)

/-- READ (R404, R197, R360). -/
def execRead (c : Cmd) (addr : MemAddr) (buddy : Bool) (upset : Upset) (s : State) : Out := commit s (read c addr buddy upset s)

/-! ## The gateway's settings (R232 to R236, R404) -/

/-- A gateway command on a port that exists and is up. -/
def State.gwCommand (op : Nat) (c : Cmd) (port : Byte) (body : Nat → State → State) (s : State) : State :=
  s.command 2 op c false fun s =>
    if 2 ≤ port.toNat then s.finish 2 c 0x011C
    else if s.gwState port.toNat ≠ 2 then s.finish 2 c 0x0605
    else body port.toNat s

/-- Priorities of a PFC mask. -/
def popcount (b : Byte) : Nat := ((List.range 8).filter fun i => b.getLsbD i).length

def gwPort (c : Cmd) (p : GwPortParams) (s : State) : State :=
  s.gwCommand 0x0207 c p.port fun g s =>
    if (if p.ipv6 then 128 else 32) < p.plen.toNat || 2 < popcount p.pfc || 4095 < p.vlan.toNat then s.finish 2 c 0x011C
    else
      (s.onGw g fun x =>
        { x with ipv6 := p.ipv6, vlan := p.vlan, udpPort := if p.udpPort = 0 then 19540 else p.udpPort, plen := p.plen
                 pfc := p.pfc, address := p.address, gids := p.address :: x.gids.drop 1 }).finish 2 c 0

/-- GW_PORT (R232, R404). -/
def execGwPort (c : Cmd) (p : GwPortParams) (s : State) : Out := commit s (gwPort c p s)

def gwTunnelAdd (c : Cmd) (p : GwTunnelParams) (s : State) : State :=
  s.gwCommand 0x0208 c p.port fun g s =>
    let others := (s.gw g).tunnels.filter fun t => t.index ≠ p.index.toNat
    if p.mtu ≠ 0 && (p.mtu.toNat < 1280 || 9000 < p.mtu.toNat) then s.finish 2 c 0x011C
    else if 1024 ≤ others.length then s.finish 2 c 0x0303
    else
      let t : Tunnel :=
        { index := p.index.toNat, remote := p.remote, remotePort := if p.remotePort = 0 then (s.gw g).udpPort else p.remotePort, jobTag := p.jobTag
          mtu := if p.mtu = 0 then 9000 else p.mtu.toNat }
      (s.onGw g fun x => { x with tunnels := others ++ [t] }).finish 2 c 0

/-- GW_TUNNEL, add (R234, R235, R404). -/
def execGwTunnelAdd (c : Cmd) (p : GwTunnelParams) (s : State) : Out := commit s (gwTunnelAdd c p s)

def gwTunnelRemove (c : Cmd) (p : GwTunnelParams) (s : State) : State :=
  s.gwCommand 0x0208 c p.port fun g s =>
    if (s.gw g).tunnels.any fun t => t.index = p.index.toNat then
      (s.onGw g fun x => { x with tunnels := x.tunnels.filter fun t => t.index ≠ p.index.toNat }).finish 2 c 0
    else s.finish 2 c 0x011C

/-- GW_TUNNEL, remove (R404). -/
def execGwTunnelRemove (c : Cmd) (p : GwTunnelParams) (s : State) : Out := commit s (gwTunnelRemove c p s)

/-- The queue pair that a GW_QP command describes. -/
def qpOf (p : GwQpParams) (qpn : Word) (ready : Bool) (received : List Bytes) (cnps : Word) : Qp :=
  { qpn, remoteQpn := p.remoteQpn, gid := p.gid, mtu := 128 * 2 ^ p.mtuCode.toNat, sendPsn := p.sendPsn, recvPsn := p.recvPsn
    remote := p.remote, remoteGid := p.remoteGid, ready, received, cnps }

/-- GID index and path MTU code in range. -/
def qpInRange (p : GwQpParams) : Bool := decide (p.gid.toNat < 16) && decide (3 ≤ p.mtuCode.toNat) && decide (p.mtuCode.toNat ≤ 5)

def gwQpCreate (c : Cmd) (p : GwQpParams) (s : State) : State :=
  s.gwCommand 0x0209 c p.port fun g s =>
    let n := (s.gw g).nextQpn
    if !qpInRange p then s.finish 2 c 0x011C
    else if 4096 ≤ (s.gw g).qps.length then s.finish 2 c 0x0303
    else (s.onGw g fun x => { x with qps := x.qps ++ [qpOf p n false [] 0], nextQpn := x.nextQpn + 1 }).finish 2 c 0 n.toNat

/-- GW_QP, create: the QPN stands in DETAIL bytes 0 to 3 (R233, R404). -/
def execGwQpCreate (c : Cmd) (p : GwQpParams) (s : State) : Out := commit s (gwQpCreate c p s)

def gwQpReady (c : Cmd) (p : GwQpParams) (s : State) : State :=
  s.gwCommand 0x0209 c p.port fun g s =>
    if !qpInRange p || !(s.gw g).qps.any (fun q => q.qpn = p.qpn) then s.finish 2 c 0x011C
    else
      (s.onGw g fun x =>
        { x with qps := x.qps.map fun q => if q.qpn = p.qpn then qpOf p q.qpn true q.received q.cnps else q }).finish 2 c 0

/-- GW_QP, to ready-to-send (R404). -/
def execGwQpReady (c : Cmd) (p : GwQpParams) (s : State) : Out := commit s (gwQpReady c p s)

def gwQpDestroy (c : Cmd) (p : GwQpParams) (s : State) : State :=
  s.gwCommand 0x0209 c p.port fun g s =>
    if (s.gw g).qps.any fun q => q.qpn = p.qpn then
      (s.onGw g fun x => { x with qps := x.qps.filter fun q => q.qpn ≠ p.qpn }).finish 2 c 0
    else s.finish 2 c 0x011C

/-- GW_QP, destroy (R404). -/
def execGwQpDestroy (c : Cmd) (p : GwQpParams) (s : State) : Out := commit s (gwQpDestroy c p s)

end Sys2Proof.Machine
end

