-- ==== Sys2Proof/Machine/Debug.lean ====
section
/-! DEFINITION. Mailbox 5, telemetry and power (R335, R408), and the dump and inspection commands of mailbox 6 (R375, R409). -/
namespace Sys2Proof.Machine

/-- POWER_CONFIG's work: settings apply from the next deadline, or at once with no job bound. -/
def State.configPower (c : Cmd) (cap : BitVec 16) (flags hyst : Byte) (holdUs : Word) (s : State) : State :=
  let y := if hyst = 0 then 3 else hyst.toNat
  let w := if holdUs = 0 then 1000 else holdUs.toNat
  if cap.toNat < 1000 || 4800 < cap.toNat || 10 < y || w < 100 || 100000 < w then s.finish 5 c 0x0118
  else
    let s := if s.job.bind.isSome then s.onPower fun p => { p with next := some (cap.toNat, flags.getLsbD 0, y, w) }
      else s.onPower fun p =>
        { p with capW := cap.toNat, fallbackEn := flags.getLsbD 0, hystPct := y, floorHoldUs := w, next := none }
    s.finish 5 c 0

def powerConfig (c : Cmd) (cap : BitVec 16) (flags hyst : Byte) (holdUs : Word) (s : State) : State :=
  s.command 5 0x0501 c false (State.configPower c cap flags hyst holdUs)

/-- POWER_CONFIG (R335). -/
def execPowerConfig (c : Cmd) (cap : BitVec 16) (flags hyst : Byte) (holdUs : Word) (s : State) : Out :=
  commit s (powerConfig c cap flags hyst holdUs s)

def telemetrySnapshot (c : Cmd) (s : State) : State :=
  s.command 5 0x0502 c false fun s => s.finishWith 5 c (s.mirrorBytes 0x2000 8320) s.clock.uptime

/-- TELEMETRY_SNAPSHOT (R408). -/
def execTelemetrySnapshot (c : Cmd) (s : State) : Out := commit s (telemetrySnapshot c s)

def dump (c : Cmd) (s : State) : State :=
  s.command 6 0x0601 c false fun s =>
    if s.dump.held.isSome then (s.note .dumpSkipped srcControl).finish 6 c 0x0201
    else if s.dump.running.isSome then (s.startDump .command s.dev.state none).finish 6 c 0x0201
    else s.startDump .command s.dev.state (some c.tag)

/-- DUMP (R375, R377, R409); DUMP_DONE completes it. One that was fetched before another capture began is a second trigger: it ends with 0x0201,
and DUMP_SKIPPED follows the capture (R380; log entry 142). -/
def execDump (c : Cmd) (s : State) : Out := commit s (dump c s)

/-- DUMP_REGION's work. -/
def State.placeRegion (c : Cmd) (h : Nat) (s : State) : State :=
  let without := s.onDump fun d => { d with region := none }
  if 7 < h then s.finish 6 c 0x011C
  else if s.nearBytes < without.nearUsed h + dumpRows * 93 * 4096 then s.finish 6 c 0x0304
  else (s.onDump fun d => { d with region := some h }).finish 6 c 0

def dumpRegion (c : Cmd) (hub : Byte) (s : State) : State := s.command 6 0x0602 c false (State.placeRegion c hub.toNat)

/-- DUMP_REGION (R375, R409). -/
def execDumpRegion (c : Cmd) (hub : Byte) (s : State) : Out := commit s (dumpRegion c hub s)

/-- The codes of R63. -/
def StrandState.code : StrandState → Nat
  | .idle => 0
  | .ready => 1
  | .waitToken => 2
  | .waitUnit => 3
  | .waitCode => 4
  | .waitFence => 5
  | .frameDone => 6
  | .waitRegion => 7
  | .planDone => 8
  | .halted => 9

/-- CORE_INSPECT's output: the four array records, the strand states, the program counters and the queue counts
in the layout of log entry 154. -/
def State.inspection (s : State) (p : Nat) : Bytes :=
  let c := s.core p
  (s.arrayRecords p).flatMap (fun r => leBytes 2 r.toNat) ++
    (List.range 64).map (fun t => BitVec.ofNat 8 (s.strandState p t).code) ++
    (List.range 64).flatMap (fun t => leBytes 4 (s.strand p t).pc) ++
    (List.range 32).map fun q => BitVec.ofNat 8 (Tab.get 0 q c.queues)

def coreInspect (c : Cmd) (core : Byte) (s : State) : State :=
  s.command 6 0x0605 c false fun s =>
    if 127 < core.toNat then s.finish 6 c 0x011C else s.finishWith 6 c (s.inspection core.toNat)

/-- CORE_INSPECT (R63, R97, R409). -/
def execCoreInspect (c : Cmd) (core : Byte) (s : State) : Out := commit s (coreInspect c core s)

end Sys2Proof.Machine
end

