-- ==== Sys2Proof/Machine/Mv.lean ====
section
/-! DEFINITION. The mover's macro-ops (R107, R139, R78): LOAD, STORE, GATHER, SCATTER and FILL. -/
namespace Sys2Proof.Machine

/-- The local views of operand fields. -/
def viewsOf (ws : List (BitVec 64)) (q : Seat) (s : State) : List View := ws.filterMap fun w => s.seatView q w

def noHub (_ : Seat) (_ : State) : Option Nat := none

/-- Copy one view to another of equal shape, without conversion. -/
def State.copyView (q : Seat) (dst src : BitVec 64) (s : State) : State :=
  match s.seatView q dst, s.seatView q src with
  | some d, some v => s.putTile d (s.tile v)
  | _, _ => s

/-- The work of LOAD. -/
def loadWork (m : MacroOp) : UnitWork :=
  { reads := viewsOf [m.op1], writes := viewsOf [m.op0], effect := fun _ q f s => (s.copyView q m.op0 m.op1, f) }

def load (i : Issue) (m : MacroOp) (s : State) : State := s.issueUnit i ocLoad .load m noHub (loadWork m)

/-- LOAD (R139). -/
def execLoad (i : Issue) (m : MacroOp) (s : State) : Out := commit s (load i m s)

/-- The work of STORE. -/
def storeWork (m : MacroOp) : UnitWork :=
  { reads := viewsOf [m.op1], writes := viewsOf [m.op0], effect := fun _ q f s => (s.copyView q m.op0 m.op1, f) }

def store (i : Issue) (m : MacroOp) (s : State) : State := s.issueUnit i ocStore .store m noHub (storeWork m)

/-- STORE (R139). -/
def execStore (i : Issue) (m : MacroOp) (s : State) : Out := commit s (store i m s)

/-! ## Indexed copies -/

/-- The scale code of 1.0 (R78). -/
def scaleOne (sfmt : Nat) : Nat := if sfmt = 1 then 0x7F else 0x38

/-- The only element of a list of equal numbers. -/
def common : List Nat → Option Nat
  | [] => none
  | a :: t => if t.all fun b => b = a then some a else none

/-- Scale bytes of one plane row take free values, where the rows of its blocks come from different blocks (log entry 34). -/
def State.freeScales (v : View) (scales : List (List Nat)) (rows : List (Nat × Option Nat)) (j : Nat) (s : State) : State :=
  s.writeArea v.area (v.scaleAt j) ((List.range v.d.scaleCols).map fun c => Config.freeScale scales rows j c)

/-- Copy rows of `src` to rows of `dst`: pairs of a destination row and a source row, or none for a zero row. -/
def State.copyRows (dst src : View) (rows : List (Nat × Option Nat)) (s : State) : State :=
  let t := s.tile src
  let s := s.each rows fun s e =>
    match e.2 with
    | some r => s.putRow dst e.1 (t.codes.getD r [])
    | none => s.putRow dst e.1 (List.replicate dst.d.cols 0)
  if dst.d.sfmt = 0 then s
  else if !dst.d.dir then
    s.each rows fun s e =>
      s.putScales dst e.1 (match e.2 with
        | some r => t.scales.getD r []
        | none => List.replicate dst.d.scaleCols (scaleOne dst.d.sfmt))
  else
    let b := dst.d.blockSize
    s.each (List.range dst.d.scaleRows) fun s j =>
      let mine := rows.filter fun e => e.1 / b = j
      let size := min b (dst.d.rows - b * j)
      if mine.isEmpty then s
      else
        match common (mine.filterMap fun e => e.2.map fun r => r / b) with
        | some k => if (mine.map fun e => e.1).eraseDups.length = size then s.putScales dst j (t.scales.getD k []) else s.freeScales dst t.scales rows j
        | none => s.freeScales dst t.scales rows j

/-- The indices of a view's rows. -/
def State.indices (s : State) (v : View) : List Int := (s.codes v).map fun r => signed 32 (r.headD 0)

/-- An index that names a row of `n`. -/
def inRange (n : Nat) (i : Int) : Option Nat := if 0 ≤ i && i < n then some i.toNat else none

/-- TILE_RANGE once, with the first failing row (R78). -/
def State.tileRange (p : Nat) (bad : Option Nat) (s : State) : State :=
  match bad with
  | some row => s.note .tileRange (srcCore p) row
  | none => s

def gatherRows (q : Seat) (m : MacroOp) (s : State) : State :=
  match s.seatView q m.op0, s.seatView q m.op1, s.seatView q m.op2 with
  | some d, some v, some x =>
    let ix := (s.indices x).map (inRange v.d.rows)
    (s.copyRows d v (ix.zipIdx.map fun e => (e.2, e.1))).tileRange q.p (firstIdx (fun e => e.isNone) ix)
  | _, _, _ => s

/-- The work of GATHER. -/
def gatherWork (m : MacroOp) : UnitWork :=
  { reads := viewsOf [m.op1, m.op2], writes := viewsOf [m.op0], effect := fun _ q f s => (gatherRows q m s, f) }

def gather (i : Issue) (m : MacroOp) (s : State) : State := s.issueUnit i ocGather .gather m noHub (gatherWork m)

/-- GATHER (R139, R78). -/
def execGather (i : Issue) (m : MacroOp) (s : State) : Out := commit s (gather i m s)

/-- Keep the last entry for each destination row. -/
def lastWins (l : List (Nat × Option Nat)) : List (Nat × Option Nat) :=
  l.zipIdx.filterMap fun e => if (l.drop (e.2 + 1)).any fun x => x.1 = e.1.1 then none else some e.1

def scatterRows (q : Seat) (m : MacroOp) (s : State) : State :=
  match s.seatView q m.op0, s.seatView q m.op1, s.seatView q m.op2 with
  | some d, some v, some x =>
    let ix := (s.indices x).map (inRange d.d.rows)
    let rows := ix.zipIdx.filterMap fun e => e.1.map fun r => (r, some e.2)
    (s.copyRows d v (lastWins rows)).tileRange q.p (firstIdx (fun e => e.isNone) ix)
  | _, _, _ => s

/-- The work of SCATTER. -/
def scatterWork (m : MacroOp) : UnitWork :=
  { reads := viewsOf [m.op1, m.op2], writes := viewsOf [m.op0], effect := fun _ q f s => (scatterRows q m s, f) }

def scatter (i : Issue) (m : MacroOp) (s : State) : State := s.issueUnit i ocScatter .scatter m noHub (scatterWork m)

/-- SCATTER (R139, R78): rows in increasing order, so the later of two equal indices stays. -/
def execScatter (i : Issue) (m : MacroOp) (s : State) : Out := commit s (scatter i m s)

/-! ## FILL -/

/-- The immediate of FILL: [31:0] the value, [32] INT32 or FP32. -/
def fillValue (w : BitVec 64) : Val := fromRegister (w.getLsbD 32) (w.toNat % 2 ^ 32)

/-- The descriptor whose write may be replayed (R186). -/
def State.replayOf (s : State) (q : Seat) (w : BitVec 64) (v : View) : Option Nat :=
  if s.replayable q.r.plan q.r.role q.n (opDesc w) v then some (opDesc w) else none

/-- Write converted values through an operand on a core and raise what the conversion raised. -/
def State.writeOperand (q : Seat) (w : BitVec 64) (mode : Nat) (vals : List (List Val)) (more : Raised) (s : State) : State :=
  match s.seatView q w with
  | none => s
  | some v =>
    let (s, r) := s.writeValues q.p v mode vals (s.replayOf q w v)
    s.coreRaised q.p (more.join r)

def fillView (q : Seat) (m : MacroOp) (s : State) : State :=
  match s.seatView q m.op0 with
  | none => s
  | some v => s.writeOperand q m.op0 m.rnd.toNat (List.replicate v.d.rows (List.replicate v.d.cols (fillValue m.op1))) {}

/-- The work of FILL. -/
def fillWork (m : MacroOp) : UnitWork :=
  { writes := viewsOf [m.op0], effect := fun _ q f s => (fillView q m s, f) }

def fill (i : Issue) (m : MacroOp) (s : State) : State := s.issueUnit i ocFill .fill m noHub (fillWork m)

/-- FILL (R116, R139). -/
def execFill (i : Issue) (m : MacroOp) (s : State) : Out := commit s (fill i m s)

end Sys2Proof.Machine
end

