-- ==== Sys2Proof/Machine/Nx.lean ====
section
/-! DEFINITION. The network unit's macro-ops (R144 to R146, R250) and the circuit slots of plans: SLOT_TRANSMIT, SLOT_FORWARD and
SLOT_ARRIVAL use what is defined here (R45, R240 to R247). -/
namespace Sys2Proof.Machine

/-! ## Serial data of views -/

def TileDesc.serialBytes (d : TileDesc) : Nat := d.rows * packedRow d.fmt d.cols + d.scaleRows * d.scaleCols

/-- A view's bytes in the order in which they travel (log entry 30). -/
def State.serialOf (s : State) (v : View) : Bytes := v.d.serial (s.tile v)

/-- The runs of a view's serial bytes: the first serial byte, the offset in the area, the length, the zero bytes that a whole write puts after it, and
the bits of the last byte that belong to the row's own elements (R109, R111). -/
def View.serialRuns (v : View) : List (Nat × Nat × Nat × Nat × Nat) :=
  let n := packedRow v.d.fmt v.d.cols
  let bits := fmtBits v.d.fmt * v.d.cols
  let own := if v.co = 0 || bits % 8 = 0 then 8 else bits % 8
  ((List.range v.d.rows).map fun r => (n * r, v.rowAt r, ceilDiv bits 8, v.rowBytes - ceilDiv bits 8, own)) ++
    (List.range v.d.scaleRows).map fun i =>
      (n * v.d.rows + v.d.scaleCols * i, v.scaleAt i, v.d.scaleCols, v.scaleBytes - v.d.scaleCols, 8)

/-- The bytes of `data`, which are serial bytes from `off` on, that fall into one run: no other byte is written (R197, R209). -/
def State.spliceRun (v : View) (off : Nat) (data : Bytes) (s : State) (r : Nat × Nat × Nat × Nat × Nat) : State :=
  let (start, at_, len, pad, own) := r
  let lo := max off start
  let hi := min (off + data.length) (start + len)
  if hi ≤ lo then s
  else
    let part := slice data (lo - off) (hi - lo)
    if hi < start + len then s.writeArea v.area (at_ + (lo - start)) part
    else if own = 8 then s.writeArea v.area (at_ + (lo - start)) (part ++ List.replicate pad 0)
    else
      let old := leNat (s.readArea v.area (at_ + len - 1) 1) / 2 ^ own * 2 ^ own
      s.writeArea v.area (at_ + (lo - start)) (part.dropLast ++ [BitVec.ofNat 8 (leNat (part.drop (part.length - 1)) % 2 ^ own + old)])

/-- Write some of a view's serial bytes. -/
def State.spliceView (v : View) (off : Nat) (data : Bytes) (s : State) : State :=
  if off = 0 && data.length = v.d.serialBytes then s.putTile v (v.d.parse data)
  else s.each v.serialRuns (State.spliceRun v off data)

/-- The twin of a pair that received data holds the same (R363). -/
def State.mirrorEntry (n : Nat) (s : State) : State :=
  match s.seat n with
  | some q => s.mirrorTwin q
  | none => s

/-- A network macro-op with nothing left to send or receive completes (R66). -/
def State.settleFlight (n p id : Nat) (s : State) : State :=
  match (s.core p).flights.find? fun f => f.id = id with
  | none => s
  | some f => if f.left = 0 && f.data.isEmpty then s.retireFlight p (s.seat n) f else s

/-! ## SEND, RECV and CRED: issue -/

/-- The work of SEND. -/
def sendWork (m : MacroOp) : UnitWork :=
  { reads := viewsOf [m.op1]
    effect := fun _ q f s =>
      match s.seatView q m.op1 with
      | none => (s, f)
      | some v => (s, { f with circuit := opExt m.op0, data := s.serialOf v, postN := 0 }) }

def send (i : Issue) (m : MacroOp) (s : State) : State := s.issueUnit i ocSend .send m noHub (sendWork m)

/-- SEND (R144): its bytes leave in its circuit's slots. -/
def execSend (i : Issue) (m : MacroOp) (s : State) : Out := commit s (send i m s)

/-- The slot held for a circuit's consumer (R144). -/
def State.heldFor (s : State) (circuit : Nat) : Option HeldSlot :=
  s.router.slotBuf.find? fun h => h.forward.isNone && h.slot.circuit.toNat = circuit

/-- Take the slot held for a circuit's consumer out of the buffer. -/
def State.dropHeld (circuit : Nat) (s : State) : State :=
  s.onRouter fun r => { r with slotBuf := dropFirst (fun h => h.forward.isNone && h.slot.circuit.toNat = circuit) r.slotBuf }

/-- The work of RECV. -/
def recvWork (m : MacroOp) : UnitWork :=
  { writes := viewsOf [m.op0]
    effect := fun _ q f s =>
      let f := { f with circuit := opExt m.op0 }
      match s.heldFor f.circuit, s.seatView q m.op0 with
      | some h, some v => ((s.spliceView v 0 h.slot.payload).dropHeld f.circuit, f)
      | _, _ => (s, { f with left := 1 }) }

def recv (i : Issue) (m : MacroOp) (s : State) : State := s.issueUnit i ocRecv .recv m noHub (recvWork m)

/-- RECV (R144): the slot already held, or the next that arrives. -/
def execRecv (i : Issue) (m : MacroOp) (s : State) : Out := commit s (recv i m s)

/-- One node of a canonical reduce on the elements from byte `off` on: the other child's bytes, and whether the local child is
the lower one (R127, R146). -/
def State.credNode (q : Seat) (d child : View) (lower : Bool) (off : Nat) (other : Bytes) (s : State) : State :=
  let mine := slice (s.serialOf child) off other.length
  let sums := ((chunks 4 (mine.length + 1) mine).zip (chunks 4 (other.length + 1) other)).map fun e =>
    if lower then fAdd (leNat e.1) (leNat e.2) else fAdd (leNat e.2) (leNat e.1)
  (s.spliceView d off (sums.flatMap fun w => leBytes 4 w)).coreRaised q.p { overflowed := sums.any fpBad }

/-- The local child is the lower one of a network node at a tree level (R146). -/
def State.lowerChild (s : State) (level : Nat) : Bool :=
  match s.place with
  | some p => !natBit p.v0 level
  | none => true

/-- The two copies of the CRED adder differ: nothing is written, no token is posted, and the frame is overrun (R362). -/
def State.reduceFailed (p : Nat) (f : Flight) (s : State) : State :=
  ((s.onFlight p f.id fun x => { x with withheld := true }).fault .reduceMismatch (srcCompute (dieOf p))).engineFailed p

/-- The partner's slot bytes reach a CRED in flight: D is written as they land (R146). -/
def State.credArrives (q : Seat) (f : Flight) (off : Nat) (data : Bytes) (s : State) : State :=
  match s.seatView q f.op.op0, s.seatView q f.op.op1 with
  | some d, some c =>
    let s := if f.mismatch then s.reduceFailed q.p f else s.credNode q d c (s.lowerChild (opExt f.op.op1)) off data
    s.onFlight q.p f.id fun x => { x with left := x.left - data.length }
  | _, _ => s

def credEffect (q : Seat) (m : MacroOp) (f : Flight) (s : State) : State × Flight :=
  match s.seatView q m.op0, s.seatView q m.op1, s.seatView q m.op2 with
  | some d, some a, some b =>
    if opLocal m then
      (s.credNode q d a (decide (s.shardOf (opExt m.op1) ≤ s.shardOf (opExt m.op2))) 0 (s.serialOf b), f)
    else
      let f := { f with circuit := opExt m.op0, data := s.serialOf b, left := d.d.serialBytes }
      match s.heldFor f.circuit with
      | some h =>
        let g := { f with left := f.left - h.slot.payload.length }
        if f.mismatch then ((s.reduceFailed q.p f).dropHeld f.circuit, { g with withheld := true })
        else ((s.credNode q d a (s.lowerChild (opExt m.op1)) 0 h.slot.payload).dropHeld f.circuit, g)
      | none => (s, f)
  | _, _, _ => (s, f)

/-- The work of CRED. -/
def credWork (m : MacroOp) : UnitWork :=
  { reads := viewsOf [m.op1, m.op2], writes := viewsOf [m.op0], effect := fun _ q f s => credEffect q m f s }

def cred (i : Issue) (m : MacroOp) (s : State) : State := s.issueUnit i ocCred .cred m noHub (credWork m)

/-- CRED (R127, R146): the local form adds at once; the network form exchanges its views over the circuit. -/
def execCred (i : Issue) (m : MacroOp) (s : State) : Out := commit s (cred i m s)

/-! ## PUT and GET: issue -/

/-- The target rank of an operand field (R145). -/
def Gazetteer.target (g : Gazetteer) (w : BitVec 64) : Nat :=
  if tgtRel w then (((g.selfRank : Int) + signed 17 (tgtRank w)) % (max 1 g.jobSize : Nat)).toNat else tgtRank w

/-- RANK_UNMAPPED: nothing is sent, and the frame is overrun (R250). -/
def State.unmapped (p rank : Nat) (s : State) : State :=
  ((s.onRouter fun r => { r with unmapped := satInc r.unmapped }).note .rankUnmapped (srcCore p) rank).coreOverrun p

/-- The header that a PUT or GET of a core gives its packets (R245). -/
def State.packetOf (s : State) (q : Seat) (m : MacroOp) (g : Gazetteer) (dest : BitVec 48) (type : Nat) : Packet :=
  { type := BitVec.ofNat 4 type, vc := 0, ordered := opOrdered m, jobTag := s.jobTag, coord := dest
    destCore := BitVec.ofNat 7 (tgtCore m.op2), postQ := BitVec.ofNat 5 m.postQ.val, postN := if type = 1 then m.postN else 0
    srcRank := BitVec.ofNat 17 g.selfRank, srcCore := BitVec.ofNat 7 q.n, attempt := s.attemptTag
    msgId := (s.core q.p).nextMsg, aop := if type = 1 then BitVec.ofNat 4 (tgtAop m.op2) else 0 }

/-- Send a PUT or GET: `go` sends to the target's coordinate with the message's identifier taken. -/
def State.sendMessage (q : Seat) (m : MacroOp) (f : Flight) (type : Nat)
    (go : Packet → Flight → State → State × Flight) (s : State) : State × Flight :=
  match s.topo.gaz with
  | none => (s.unmapped q.p (tgtRank m.op2), { f with withheld := true })
  | some g =>
    let rank := g.target m.op2
    match g.coord rank with
    | none => (s.unmapped q.p rank, { f with withheld := true })
    | some dest =>
      let p := s.packetOf q m g dest type
      go p { f with msgId := p.msgId } (s.onCore q.p fun c => { c with nextMsg := c.nextMsg + 1 })

/-- The work of PUT. -/
def putWork (m : MacroOp) : UnitWork :=
  { reads := viewsOf [m.op1]
    effect := fun _ q f s =>
      match s.seatView q m.op1 with
      | none => (s, f)
      | some v =>
        s.sendMessage q m f 1 fun p f s =>
          let data := s.serialOf v
          (s.each (cutMessage 4096 { p with destView := m.op0 } data) (fun s p => s.inject p),
            { f with postN := 0, left := if m.postN = 0 then data.length else 0 }) }

def put (i : Issue) (m : MacroOp) (s : State) : State := s.issueUnit i ocPut .put m noHub (putWork m)

/-- PUT (R145, R246, R250). -/
def execPut (i : Issue) (m : MacroOp) (s : State) : Out := commit s (put i m s)

/-- The work of GET. -/
def getWork (m : MacroOp) : UnitWork :=
  { writes := viewsOf [m.op0]
    effect := fun _ q f s =>
      match s.seatView q m.op0 with
      | none => (s, f)
      | some v =>
        s.sendMessage q m f 2 fun p f s =>
          let n := v.d.serialBytes
          (s.inject (sealPacket { p with destView := m.op1, replyView := m.op0, msgBytes := BitVec.ofNat 32 n }), { f with left := n }) }

def get (i : Issue) (m : MacroOp) (s : State) : State := s.issueUnit i ocGet .get m noHub (getWork m)

/-- GET (R145, R250): it ends when its reply has landed. -/
def execGet (i : Issue) (m : MacroOp) (s : State) : Out := commit s (get i m s)

/-! ## Slots of the running plan -/

/-- A plan slot in 0.01 ns of meridian time. -/
def State.slotTime (s : State) (cycles : Nat) : Nat := s.job.tickAt * 100 + 64 * cycles

/-- The bytes of the macro-op that sends on a circuit: its outgoing view (R144, R146). -/
def Plan.sentBytes (p : Plan) (o : RawOp) : Nat :=
  ((p.tiles[opDesc (if o.opcode = ocSend then o.op.op1 else o.op.op2)]?).map TileDesc.serialBytes).getD 0

/-- The flight of core-table entry `n` that sends on a circuit. -/
def State.sender (s : State) (p circuit : Nat) : Option Flight :=
  (s.core p).flights.find? fun f => (f.kind == .send || f.kind == .cred) && f.circuit = circuit && !f.data.isEmpty

/-- Send a slot on the links of its span, each with its share of the bytes by units; the first completes it. The span ends 32 cycles after its last byte (R240, R242; log entry 124). -/
def State.sendSlot (links : List Nat) (at_ : Nat) (x : Slot) (s : State) : State :=
  let data := slotBytes x
  let unit := ceilDiv data.length (max 1 (links.map fun n => (s.link n).units).sum)
  let parts := links.foldl
    (fun (a : List (Nat × Bytes) × Bytes) n => (a.1 ++ [(n, a.2.take (unit * (s.link n).units))], a.2.drop (unit * (s.link n).units))) ([], data)
  let cycles := ceilDiv (x.payload.length + 32) (64 * max 1 (links.map fun n => (s.link n).units).sum)
  s.each (parts.1.filter fun e => !e.2.isEmpty).reverse fun s e =>
    (s.transmit e.1 (if links.head? = some e.1 then .slot at_ x else .share at_) e.2 at_ cycles).onLink e.1 fun l =>
      { l with guardUntil := at_ + 64 * (cycles + 32) }

/-- Transmit one of the running plan's slots: the next bytes of the macro-op that sends on its circuit (R144, R240, R241). -/
def State.transmitSpan (r : Resident) (x : Span) (links : List Nat) (s : State) : State :=
  let c := x.circuit
  let p := s.coreFor r.plan.twin c.srcCore
  let at_ := s.slotTime x.start
  let s := s.meridianTo (ceilDiv at_ 100)
  match s.sender p c.id, links with
  | some f, _ :: _ =>
    let part := f.data.take x.entry.payload
    let rest := f.data.drop x.entry.payload
    let slot := sealSlot
      { circuit := BitVec.ofNat 8 c.id, postQ := BitVec.ofNat 5 f.op.postQ.val
        postN := if rest.isEmpty && c.mode ≠ 1 then f.op.postN else 0
        dstCore := BitVec.ofNat 7 c.dstCore, lastSlot := rest.isEmpty, attempt := s.attemptTag
        frameLo := BitVec.ofNat 16 s.job.now, jobTag := s.jobTag, payload := part, crc := 0 }
    let s := (s.sendSlot links at_ slot).onFlight p f.id fun f => { f with data := rest }
    if f.kind == .cred then s.settleFlight c.srcCore p f.id else s
  | _, _ => s

/-! ## Arrival (R45, R144, R243) -/

/-- How the arrival of a slot's first payload byte is judged. -/
inductive SlotTiming where
  | onTime | slip | early | late
  deriving DecidableEq, Repr

/-- Arrival at `at_` against a window of `len` fabric cycles opening at `start`, both in 0.01 ns: the guards are 32 cycles (R45,
log entry 40). -/
def judgeArrival (at_ start len : Nat) : SlotTiming :=
  if start ≤ at_ && at_ < start + 64 * len then .onTime
  else if start ≤ at_ + 2048 && at_ < start + 64 * len + 2048 then .slip
  else if at_ < start then .early
  else .late

/-- The distance between two times. -/
def apartBy (a b : Nat) : Nat := max a b - min a b

/-- The slot of the running plan that an arrival is nearest to: slots travelling along bearing `b` on the circuit. -/
def State.expected (s : State) (link b circuit at_ : Nat) : Option (Span × Nat) :=
  match s.runningPlan with
  | none => none
  | some (r, v, f) =>
    ((s.spansIn r.plan v f b).filter fun x => x.circuit.id = circuit).foldl
      (fun (best : Option (Span × Nat)) x =>
        let t := s.slotTime (x.start + (s.link link).delay.toNat)
        match best with
        | some y => if apartBy at_ t < apartBy at_ y.2 then some (x, t) else best
        | none => some (x, t)) none

/-- Hold a slot in the incoming link's slot buffer (R244). -/
def State.holdSlot (h : HeldSlot) (s : State) : State := s.onRouter fun r => { r with slotBuf := r.slotBuf ++ [h] }

/-- A transit slot waits for its next hop's transmit start (R243); with no link that carries it on, it is lost. -/
def State.transit (link : Nat) (x : Span) (slot : Slot) (b : Nat) (s : State) : State :=
  match s.runningPlan with
  | none => s
  | some (r, v, f) =>
    let next := ((s.placedOut r.plan v f b).getD []).find? fun y =>
      y.1.circuit.id = x.circuit.id && y.1.hop = x.hop + 1 && y.1.window = x.window
    match (next.map fun y => y.2).getD [] with
    | [] => s
    | out => s.holdSlot { link, slot, forward := some (out, s.slotTime (x.circuit.hopStart x.entry (x.hop + 1))) }

/-- A direct slot lands at the view its SEND names, and its posts are added (R144, R66). -/
def State.landSlot (x : Span) (slot : Slot) (s : State) : State :=
  match s.runningPlan with
  | none => s
  | some (r, v, _) =>
    let n := x.circuit.dstCore
    let p := s.coreFor r.plan.twin n
    let s := match x.target v r.plan.sentBytes with
      | none => s
      | some (o, off) =>
        match s.view? p ((s.job.running.map Dispatch.slot).getD 0) r.plan o.op.op0 with
        | some w => s.spliceView w off slot.payload
        | none => s
    ((s.postTokens p slot.postQ.toNat slot.postN.toNat).mirrorEntry n).onJob fun j =>
      { j with delivered := (x.circuit.id, x.window) :: j.delivered }

/-- A slot for a RECV or CRED: its macro-op takes it, or the slot buffer holds it (R144, R146). -/
def State.consumeSlot (link : Nat) (x : Span) (slot : Slot) (s : State) : State :=
  let n := x.circuit.dstCore
  match s.seat n with
  | none => s.holdSlot { link, slot }
  | some q =>
    let waits := fun (f : Flight) => (f.kind == .recv || f.kind == .cred) && f.circuit = x.circuit.id && decide (0 < f.left)
    match (s.core q.p).flights.find? waits with
    | none => s.holdSlot { link, slot }
    | some f =>
      let s := if f.kind == .recv then
          (match s.seatView q f.op.op0 with
            | some v => s.spliceView v 0 slot.payload
            | none => s).onFlight q.p f.id fun f => { f with left := 0 }
        else
          let total := match s.seatView q f.op.op0 with
            | some v => v.d.serialBytes
            | none => 0
          s.credArrives q f (total - f.left) slot.payload
      (s.settleFlight n q.p f.id).mirrorEntry n

/-- SLOT_LATE with its direction in DETAIL: 0 early, 1 late (R45, log entry 23). -/
def State.slotLate (link detail : Nat) (s : State) : State :=
  (s.onJob fun j => { j with slotLates := satInc j.slotLates }).note .slotLate (srcLink link) detail

/-- A slot of the running plan whose trailer is good (R45, R243, R260). -/
def State.planSlot (link b : Nat) (x : Span) (opens at_ : Nat) (slot : Slot) (s : State) : State :=
  let t := judgeArrival at_ opens x.len
  let s := match t with
    | .onTime => s
    | .slip => (s.onJob fun j => { j with slips := satInc j.slips }).onLink link fun l => { l with slips := satInc l.slips }
    | .early => s.slotLate link 0
    | .late => s.slotLate link 1
  if x.hop < x.circuit.hops then s.transit link x slot b
  else if t = .early || t = .late then s
  else
    let twin := (s.runningPlan.map fun e => e.1.plan.twin).getD false
    if (s.core (s.coreFor twin x.circuit.dstCore)).inReset then s.onRouter fun r => { r with slotSunk := satInc r.slotSunk }
    else if x.circuit.mode = 0 then s.landSlot x slot
    else (s.consumeSlot link x slot).onJob fun j => { j with delivered := (x.circuit.id, x.window) :: j.delivered }

end Sys2Proof.Machine
end

