-- ==== Sys2Proof/Machine/Delivery.lean ====
section
/-! DEFINITION. Packets at their destination (R245 to R247, R209, R260, R359, R360, R362): PUTs and their atomics, GET requests and
replies, landing acknowledgements, and the transfers of mailbox 2. -/
namespace Sys2Proof.Machine

/-- The control dies' SRC_CORE and DEST_CORE: no core. -/
def noCore : Nat := 127

/-! ## Atomics (R209) -/

/-- One atomic on an element: its result with what it raised. -/
def atomic (aop old new : Nat) : Nat × Raised :=
  if aop = 1 then (let w := fAdd old new; (w, { overflowed := fpBad w }))
  else if aop = 2 then (let w := fMax old new; (w, { overflowed := fpBad w }))
  else if aop = 3 then (let w := fMin old new; (w, { overflowed := fpBad w }))
  else satInt32 0 (signed 32 old + signed 32 new)
where
  satInt32 (r : Nat) (i : Int) : Nat × Raised :=
    let (w, sat) := isat i
    (w, if sat then { sats := 1, satRow := some r } else {})

/-- Elements `lo` to `hi` − 1 of a view of 32-bit elements, in runs that lie in one 64-byte line each: the first element and how many. -/
def View.lines (v : View) (lo hi : Nat) : List (Nat × Nat) :=
  let line := fun (i : Nat) => (v.rowAt (i / v.d.cols) + 4 * (i % v.d.cols)) / 64
  (List.range (hi - lo)).foldl
    (fun (a : List (Nat × Nat)) j =>
      match a.getLast? with
      | some e => if line e.1 = line (lo + j) then a.dropLast ++ [(e.1, e.2 + 1)] else a ++ [(lo + j, 1)]
      | none => [(lo + j, 1)]) []

/-- One read-modify-write of a line: its elements `e.1` to `e.1 + e.2 − 1` of a view, with new values from byte `off` of the view on (R209). -/
def State.applyLine (aop : Nat) (v : View) (off : Nat) (data : Bytes) (s : State) (e : Nat × Nat) : State × Raised :=
  let old := ((s.codes v).flatten.drop e.1).take e.2
  let new := (chunks 4 (data.length + 1) (slice data (4 * e.1 - off) (4 * e.2))).map leNat
  let results := (new.zip old).zipIdx.map fun x =>
    let r := atomic aop x.1.2 x.1.1
    (r.1, { r.2 with satRow := r.2.satRow.map fun _ => (e.1 + x.2) / v.d.cols })
  (s.spliceView v (4 * e.1) (results.flatMap fun r => leBytes 4 r.1), (results.map fun r => r.2).foldl Raised.join {})

/-- A payload's atomics on a hub-cache view from byte `off` of its elements on, line by line; FORMAT_SATURATE is logged once for the message
(R118, R209). -/
def State.applyAtomics (hub aop : Nat) (v : View) (p : Packet) (s : State) : State :=
  let off := p.offset.toNat
  let lines := v.lines (off / 4) (off / 4 + p.payload.length / 4)
  let (s, r) := lines.foldl
    (fun (a : State × Raised) e =>
      let (s, r) := a.1.applyLine aop v off p.payload e
      (s, a.2.join r)) (s, {})
  let m := (p.srcRank.toNat, p.srcCore.toNat, p.msgId)
  let known := (s.hub hub).saturated.contains m
  let s := s.onHub hub fun h =>
    { h with atomics := satAdd h.atomics lines.length, saturated := if r.satRow.isSome && !known then m :: h.saturated else h.saturated }
  s.hubRaised hub (if known then { r with satRow := none } else r)

/-! ## Destinations -/

/-- The physical core of DEST_CORE in the running plan; 127 names none, and its spaces are those of core 0's hub. -/
def State.destCore (s : State) (n : Nat) : Nat :=
  s.coreFor ((s.runningPlan.map fun e => e.1.plan.twin).getD false) (if n = noCore then 0 else n)

/-- The logical core whose spaces a PUT's or GET's view here names: CORE of R145, or for 127 the number of the
sender's own core. DESIGN CHOICE (assumption 55): the manual fixes it for a hub's cache alone (R211). -/
def packetViewCore (p : Packet) : Nat := if p.destCore.toNat = noCore then p.srcCore.toNat else p.destCore.toNat

/-- A view of a packet, against the plan that runs here. -/
def State.packetView (s : State) (n : Nat) (w : BitVec 64) : Option View :=
  match s.runningPlan, s.job.running with
  | some (r, _, _), some d => s.view? (s.destCore n) d.slot r.plan w
  | _, _ => none

/-- A tile of a core in reset (R260). -/
def State.inResetTile (s : State) (n : Nat) (v : View) : Bool := v.d.space = spTile && (s.core (s.destCore n)).inReset

/-- Send a landing acknowledgement for a packet (R246). -/
def State.acknowledge (p : Packet) (s : State) : State :=
  match s.topo.gaz with
  | none => s
  | some g =>
    match g.coord p.srcRank.toNat with
    | none => s
    | some dest =>
      s.inject (sealHeader
        { type := 7, vc := 1, jobTag := p.jobTag, coord := dest, destCore := p.srcCore, srcRank := BitVec.ofNat 17 g.selfRank
          attempt := p.attempt, msgId := p.msgId, bytes := p.bytes })

/-- PACKET_SUNK once per reset, and the count (R260). -/
def State.sink (p : Nat) (s : State) : State :=
  let s := s.onRouter fun r => { r with sunk := satInc r.sunk }
  if (s.core p).sunkLogged then s else (s.onCore p fun c => { c with sunkLogged := true }).note .packetSunk srcModule

/-! ## Messages (R246) -/

/-- A message of the packet in a die's completion table. -/
def Message.of (m : Message) (die : Nat) (p : Packet) : Bool :=
  m.die = die && m.srcRank = p.srcRank.toNat && m.srcCore = p.srcCore.toNat && m.msgId = p.msgId

/-- The completion table of a die has no entry for the packet's message and none free. -/
def State.tableFull (s : State) (die : Nat) (p : Packet) : Bool :=
  !(s.router.messages.any fun m => m.of die p) && decide (16384 ≤ (s.router.messages.filter fun m => m.die = die).length)

/-- Count a landed packet toward its message; a complete message posts (R246, R66). -/
def State.countPacket (die : Nat) (p : Packet) (s : State) : State :=
  let old := s.router.messages.find? fun m => m.of die p
  let got := ((old.map fun m => m.got).getD 0) + p.payload.length
  let rest := s.router.messages.filter fun m => !m.of die p
  if got = p.msgBytes.toNat then
    let s := s.onRouter fun r => { r with messages := rest }
    let n := p.destCore.toNat
    if n = noCore then s else (s.postTokens (s.destCore n) p.postQ.toNat p.postN.toNat).mirrorEntry n
  else
    s.onRouter fun r =>
      { r with messages := rest ++
          [{ die, srcRank := p.srcRank.toNat, srcCore := p.srcCore.toNat, msgId := p.msgId, got, total := p.msgBytes.toNat }] }

/-! ## Checks at the network interface -/

/-- A payload that fails its CRC-32C (R360): nothing lands, the frame is overrun and the vote carries INTEGRITY. -/
def State.payloadBad (die link : Nat) (s : State) : State :=
  ((s.fault .payloadCrc (srcCompute die) link link).overrun).voteIntegrity

/-- What else a check found while a payload landed in core `p`'s tile store, or in a hub's memory: true where nothing lands (R360, R362, R197). -/
def State.landUpset (p hub : Nat) (tile atomic : Bool) (u : Upset) (s : State) : State × Bool :=
  match upsetFound u with
  | .datapath => if atomic then ((s.fault .updateMismatch (srcHub hub)).overrun, true) else (s, false)
  | .pathParity _ _ =>
    if tile then ((s.fault .pathParity (srcCore p)).coreOverrun p, true) else ((s.fault .pathParity (srcHub hub)).overrun, true)
  | .corrected b => (s.eccCorrected b, false)
  | .uncorrectable b => if atomic then ((s.readPoison b).overrun, true) else (s, false)
  | _ => (s, false)

/-! ## PUT -/

/-- The hub whose memory a view lies in. -/
def View.hub (v : View) (p : Nat) : Nat :=
  match v.area with
  | .hubc h => h
  | .near h => h
  | _ => hubOf p

/-- The lines that a packet's atomics read (R209). -/
def View.atomicKeys (v : View) (s : State) (p : Packet) : List (Nat × Nat) :=
  let lo := p.offset.toNat / 4
  (v.lines lo (lo + p.payload.length / 4)).map fun e =>
    (s.areaByteKey v.area (v.rowAt (e.1 / v.d.cols) + 4 * (e.1 % v.d.cols)), 4 * e.2)

/-- A PUT packet reaches memory: its bytes, or its atomics; then its acknowledgement or its count (R209, R246). -/
def State.landPut (p : Packet) (v : View) (u : Upset) (s : State) : State :=
  let n := packetViewCore p
  let pc := s.destCore n
  let h := v.hub pc
  let aop := p.aop.toNat
  let (s, u) := s.joinPoison u (if aop = 0 then none else s.poisonOf (v.atomicKeys s p))
  match s.landUpset pc h (v.d.space = spTile) (aop ≠ 0) u with
  | (s, true) => s
  | (s, false) =>
    let s := if aop = 0 then s.spliceView v p.offset.toNat p.payload else s.applyAtomics h aop v p
    if p.postN = 0 then (s.mirrorEntry n).acknowledge p else s.countPacket (dieOf pc) p

/-- A packet whose atomics have waited at the hub gets a slot; one of an earlier attempt has no effect (R57, R247). -/
def State.landWaiting (p : Packet) (u : Upset) (s : State) : State :=
  if p.jobTag ≠ s.jobTag || p.attempt ≠ s.attemptTag then s.onRouter fun r => { r with stale := satInc r.stale }
  else
    match s.packetView (packetViewCore p) p.destView with
    | some v => s.landPut p v u
    | none => s.onRouter fun r => { r with stale := satInc r.stale }

def State.deliverPut (p : Packet) (link : Nat) (u : Upset) (s : State) : State :=
  let n := packetViewCore p
  let pc := s.destCore n
  let die := dieOf pc
  match s.packetView n p.destView with
  | none => s.onRouter fun r => { r with stale := satInc r.stale }
  | some v =>
    let h := v.hub pc
    if s.inResetTile n v then if p.postN = 0 then (s.sink pc).acknowledge p else s.sink pc
    else if !packetPayloadOk p then s.payloadBad die link
    else if p.poison then s.coreOverrun pc
    else if p.postN ≠ 0 && s.tableFull die p then ((s.fault .msgTableFull (srcCompute die))).overrun
    else if s.unserved (s.viewKeys v) then s
    else if p.aop ≠ 0 && (s.hub h).full then s.onHub h fun x => { x with waiting := x.waiting ++ [.packet p link u] }
    else s.landPut p v u

/-! ## GET -/

/-- What a check found as a GET's source was read: true where the reply is poisoned. A word of a tile is the core's to check, any other the
hub's (R197, R360). -/
def State.getUpset (pc : Nat) (v : View) (u : Upset) (s : State) : State × Bool :=
  match upsetFound u with
  | .corrected b => (s.eccCorrected b, false)
  | .uncorrectable b => (s.readPoison b, true)
  | .pathParity _ _ =>
    if v.d.space = spTile then ((s.fault .pathParity (srcCore pc)).coreOverrun pc, true)
    else ((s.fault .pathParity (srcHub (v.hub pc))).overrun, true)
  | _ => (s, false)

/-- The reply of a GET request: the source view's bytes, poisoned where they are (R145, R197, R260). While a channel retrains the request
waits (R200). -/
def State.deliverGet (p : Packet) (link : Nat) (u : Upset) (s : State) : State :=
  let n := packetViewCore p
  match s.packetView n p.destView, s.topo.gaz.bind fun g => (g.coord p.srcRank.toNat).map fun c => (g, c) with
  | some v, some (g, dest) =>
    let size := p.msgBytes.toNat
    let dead := s.inResetTile n v
    if s.unserved (s.viewKeys v) then s
    else
      s.readOrPark (s.viewKeys v) (fun hubs => .packet hubs p link u) fun s =>
        let (s, bad) := s.getUpset (s.destCore n) v u
        let data := if dead then List.replicate size 0 else (s.serialOf v).take size
        let r : Packet :=
          { type := 3, vc := 1, ordered := p.ordered, poison := dead || bad || s.viewPoisoned v, jobTag := p.jobTag, coord := dest
            destCore := p.srcCore, srcRank := BitVec.ofNat 17 g.selfRank, srcCore := p.destCore, attempt := p.attempt, msgId := p.msgId
            replyView := p.replyView }
        s.each (cutMessage 4096 r data) fun s p => s.inject p
  | _, _ => s.onRouter fun r => { r with stale := satInc r.stale }

/-- A reply lands in the requester's view (R246, R260, R197). -/
def State.deliverReply (p : Packet) (link : Nat) (u : Upset) (s : State) : State :=
  let n := p.destCore.toNat
  let pc := s.destCore n
  let gone := (s.core pc).inReset
  match (s.core pc).flights.find? (fun f => f.kind == .get && f.msgId = p.msgId), s.seat n with
  | some f, some q =>
    if gone then s.sink pc
    else if !packetPayloadOk p then s.payloadBad (dieOf pc) link
    else if p.poison then
      let s := (s.onFlight pc f.id fun f => { f with withheld := true, left := f.left - p.payload.length }).checkFailed pc
      s.settleFlight n pc f.id
    else
      match s.landUpset pc (hubOf pc) true false u with
      | (s, true) => s.onFlight pc f.id fun f => { f with withheld := true, left := f.left - p.payload.length }
      | (s, false) =>
        let s := match s.seatView q f.op.op0 with
          | some v => s.spliceView v p.offset.toNat p.payload
          | none => s
        let s := s.onFlight pc f.id fun f => { f with left := f.left - p.payload.length }
        (s.settleFlight n pc f.id).mirrorEntry n
  | _, _ => if gone then s.sink pc else s.onRouter fun r => { r with sunk := satInc r.sunk }

/-! ## Landing acknowledgements -/

/-- An acknowledgement of a plan's PUT. -/
def State.ackPut (p : Packet) (s : State) : State :=
  let n := p.destCore.toNat
  let pc := s.destCore n
  match (s.core pc).flights.find? fun f => f.kind == .put && f.msgId = p.msgId with
  | none => s
  | some f => ((s.onFlight pc f.id fun f => { f with left := f.left - p.bytes.toNat }).endWork pc).settleFlight n pc f.id

/-- A mailbox 2 transfer has nothing left: its command completes. -/
def State.endTransfer (t : Transfer) (s : State) : State :=
  if t.left = 0 then
    (s.onRouter fun r => { r with transfers := r.transfers.filter fun x => x.msgId ≠ t.msgId }).complete 2 t.tag 0 0
      t.buffer t.data
  else s.onRouter fun r => { r with transfers := r.transfers.map fun x => if x.msgId = t.msgId then t else x }

/-- An acknowledgement of a WRITE with another module. -/
def State.ackTransfer (p : Packet) (s : State) : State :=
  match s.router.transfers.find? fun t => t.msgId = p.msgId && !t.read with
  | none => s
  | some t => s.endTransfer { t with left := t.left - p.bytes.toNat }

/-- An acknowledgement that a network interface accepts: its job's and, for a plan's PUT, of the running attempt (R247). -/
def State.takeAck (p : Packet) (s : State) : State :=
  if p.jobTag ≠ s.jobTag then s
  else if p.destCore.toNat = noCore then s.ackTransfer p
  else if p.attempt ≠ s.attemptTag then s.onRouter fun r => { r with stale := satInc r.stale }
  else s.ackPut p

/-- HEADER_CRC at a network interface (R245). -/
def State.badHeader (n : Nat) (s : State) : State :=
  (s.onRouter fun r => { r with hcrcErrors := satInc r.hcrcErrors }).fault .headerCrc (srcCompute (dieOf (s.destCore n)))

def landingAck (p : Packet) (s : State) : State :=
  if !packetHeaderOk p then s.badHeader p.destCore.toNat
  else if p.type = 7 && p.coord = s.ownCoord then s.takeAck p
  else s

/-- LANDING_ACK (R246, R247). -/
def execLandingAck (p : Packet) (s : State) : Out := commit s (landingAck p s)

/-! ## Mailbox 2 transfers of another module (R239, log entry 41) -/

/-- The address that a remote transfer names. -/
def remoteAddr (p : Packet) : MemAddr × Bool :=
  let r := p.replyView.toNat
  ({ base := p.destView, space := BitVec.ofNat 8 r, slot := BitVec.ofNat 8 (r / 2 ^ 8), variantSlot := BitVec.ofNat 16 (r / 2 ^ 16)
     part := BitVec.ofNat 8 (r / 2 ^ 32) }, natBit r 40)

/-- The place of a run inside a transfer's place. -/
def XferPlace.shift (n : Nat) : XferPlace → XferPlace
  | .area a off => .area a (off + n)
  | .slice t slot v off b => .slice t slot v (off + n) b

/-- A payload of a mailbox 2 transfer fails its CRC-32C: it is logged, and no frame is affected (R360). -/
def State.transferCrc (p : Packet) (link : Nat) (s : State) : State :=
  s.fault .payloadCrc (srcCompute (dieOf (s.destCore p.destCore.toNat))) link link

/-- A transfer that another module asked for. What a check finds keeps a WRITE from landing and poisons a READ's reply (R360, R197). -/
def State.remoteTransfer (p : Packet) (link : Nat) (u : Upset) (s : State) : State :=
  let (a, buddy) := remoteAddr p
  let sheet := a.space.toNat = spSheet
  let n := p.msgBytes.toNat
  if !packetPayloadOk p then s.transferCrc p link
  else
    match s.xferPlace a n (p.type = 2) buddy with
    | .error _ => s
    | .ok x =>
      if s.unserved (s.xferKeys x n) then s
      else if p.type = 1 then
        if sheet && s.job.dispatched then s
        else
          match s.xferUpset u with
          | (s, some _) => s
          | (s, none) => (s.xferWrite (x.shift p.offset.toNat) p.payload).acknowledge p
      else
        match s.topo.gaz.bind fun g => (g.coord p.srcRank.toNat).map fun c => (g, c) with
        | none => s
        | some (g, dest) =>
          s.readOrPark (s.xferKeys x n) (fun hubs => .packet hubs p link u) fun s =>
            let (s, u) := s.joinPoison u (s.xferPoison x n)
            let (s, bad) := s.xferUpset u
            let r : Packet :=
              { type := 3, vc := 2, jobTag := p.jobTag, coord := dest, destCore := 127, srcRank := BitVec.ofNat 17 g.selfRank, srcCore := 127
                attempt := p.attempt, msgId := p.msgId, poison := bad.isSome }
            s.each (cutMessage 4096 r (s.xferRead x n)) fun s p => s.inject p

/-- A READ with another module ends with 0x0403 (R360). -/
def State.failTransfer (t : Transfer) (s : State) : State :=
  (s.onRouter fun r => { r with transfers := r.transfers.filter fun x => x.msgId ≠ t.msgId }).complete 2 t.tag 0x0403

/-- A reply to a READ with another module: poison, a bad payload or a failed check ends it with 0x0403 (R360). -/
def State.remoteReply (p : Packet) (link : Nat) (u : Upset) (s : State) : State :=
  match s.router.transfers.find? fun t => t.msgId = p.msgId && t.read with
  | none => s
  | some t =>
    if !packetPayloadOk p then (s.transferCrc p link).failTransfer t
    else if p.poison then s.failTransfer t
    else
      match s.xferUpset u with
      | (s, some _) => s.failTransfer t
      | (s, none) =>
        let data := t.data ++ List.replicate (p.offset.toNat + p.payload.length - t.data.length) 0
        s.endTransfer { t with
          left := t.left - p.payload.length
          data := data.take p.offset.toNat ++ p.payload ++ data.drop (p.offset.toNat + p.payload.length) }

/-! ## Forwarded packets (R234) -/

/-- Bytes of an encapsulated packet beside its payload (R235). -/
def tunnelOverhead (ipv6 : Bool) : Nat := if ipv6 then 192 else 172

/-- Bytes of the IP datagram that carries a packet, or an acknowledgement alone. -/
def tunnelBytes (ipv6 : Bool) (p : Option Packet) : Nat :=
  (if ipv6 then 64 else 44) +
    match p with
    | none => 0
    | some x => 64 + x.payload.length + if x.payload.isEmpty then 0 else 64

/-- Largest payload of a tunnel's packets: the path MTU less 172 bytes (IPv4) or 192 bytes (IPv6), in multiples of 64 and at most 4,096. -/
def Tunnel.room (t : Tunnel) (ipv6 : Bool) : Nat := min 4096 ((t.mtu - tunnelOverhead ipv6) / 64 * 64)

/-- A packet as the packets of at most `n` bytes that a tunnel carries; each names its place in the message (log entry 43). -/
def recut (n : Nat) (p : Packet) : List Packet :=
  if p.payload.length ≤ n then [p]
  else
    let parts := chunks n p.payload.length p.payload
    parts.zipIdx.map fun e =>
      sealPacket { p with
        payload := e.1, offset := p.offset + BitVec.ofNat 32 (n * e.2), last := p.last && e.2 + 1 = parts.length
        poison := p.poison || !packetPayloadOk p }

/-- The tunnel header (R234); a tunnel has one index at both its ends (log entry 43). -/
def Tunnel.header (t : Tunnel) (seq ack : Word) (p : Option Packet) : Bytes :=
  leBytes 1 1 ++ leBytes 1 ((p.map fun x => x.vc.toNat).getD 4) ++ leBytes 2 t.jobTag.toNat ++ leBytes 4 seq.toNat ++
    leBytes 4 ack.toNat ++ leBytes 2 t.index ++ leBytes 2 0

/-- The datagram that carries a packet, or an acknowledgement alone, through a tunnel (R234). -/
def Gateway.datagram (x : Gateway) (t : Tunnel) (seq ack : Word) (p : Option Packet) : Datagram :=
  { vlan := x.vlan, ipv6 := x.ipv6, source := x.address, dest := t.remote
    sourcePort := Config.tunnelSourcePort t.jobTag ((p.map fun y => y.vc).getD 0), destPort := t.remotePort
    data := t.header seq ack p ++ (p.map packetBytes).getD [] }

def State.onTunnel (g index : Nat) (f : Tunnel → Tunnel) (s : State) : State :=
  s.onGw g fun x => { x with tunnels := x.tunnels.map fun y => if y.index = index then f y else y }

/-- Send on a tunnel, with or without a packet, while its port is up. -/
def State.sendTunnel (g : Nat) (t : Tunnel) (seq ack : Word) (p : Option Packet) (s : State) : State :=
  if s.gwState g ≠ 2 then s
  else
    (s.onGw g fun x => { x with txBytes := satAdd x.txBytes (tunnelBytes x.ipv6 p) }).emit (.tunnel g ((s.gw g).datagram t seq ack p))

/-- Send the next packet of a tunnel and keep it until it is acknowledged. -/
def State.launch (g : Nat) (t : Tunnel) (p : Packet) (s : State) : State :=
  match (s.gw g).tunnels.find? fun y => y.index = t.index with
  | none => s
  | some y =>
    (s.onTunnel g t.index fun y =>
      { y with
        txSeq := y.txSeq + 1, unacked := y.unacked ++ [(y.txSeq, p)]
        since := if y.unacked.isEmpty then s.clock.uptime else y.since }).sendTunnel g y y.txSeq y.rxNext (some p)

/-- Waiting packets leave while fewer than 256 are unacknowledged (R235). -/
def State.pumpTunnel (g index : Nat) (s : State) : State :=
  match (s.gw g).tunnels.find? fun y => y.index = index with
  | none => s
  | some t =>
    let n := 256 - t.unacked.length
    (s.onTunnel g index fun y => { y with waiting := y.waiting.drop n }).each (t.waiting.take n) fun s p => s.launch g t p

/-- Own transfers of mailbox 2 whose packet this is. -/
def State.ownTransfer (s : State) (p : Packet) : Bool :=
  p.srcCore = 127 && p.srcRank.toNat = (s.topo.gaz.map fun x => x.selfRank).getD 0 && s.router.transfers.any fun x => x.msgId = p.msgId

/-- A forwarded packet that reached the module of its tunnel leaves through it (log entry 43). -/
def State.intoTunnel (p : Packet) (s : State) : State :=
  match (List.range 2).findSome? fun g => ((s.gw g).tunnels.find? fun t => t.jobTag = p.jobTag && !t.failed).map fun t => (g, t) with
  | none => s
  | some (g, t) =>
    let own := s.ownTransfer p && !t.carried.contains p.msgId
    (s.onTunnel g t.index fun y =>
      { y with
        waiting := y.waiting ++ recut (t.room (s.gw g).ipv6) p
        carried := if own then y.carried ++ [p.msgId] else y.carried }).pumpTunnel g t.index

/-! ## PACKET_DELIVERY -/

/-- A packet reaches a network interface of its module. What a control packet or a broadcast says is the rows' of its own (log entry 9); its payload
is checked as any other (R359, R360). -/
def State.deliver (p : Packet) (link : Nat) (u : Upset) (s : State) : State :=
  if !packetHeaderOk p then s.badHeader p.destCore.toNat
  else if p.type = 6 then (if packetPayloadOk p then s else s.payloadBad (dieOf (s.destCore p.destCore.toNat)) link)
  else if p.coord ≠ s.ownCoord || p.jobTag ≠ s.jobTag then s
  else if p.type = 4 then s.intoTunnel p
  else if p.type = 5 then (if packetPayloadOk p then s else s.payloadBad (dieOf (s.destCore p.destCore.toNat)) link)
  else if p.vc = 2 then
    (if p.type = 1 || p.type = 2 then s.remoteTransfer p link u else if p.type = 3 then s.remoteReply p link u else s)
  else if p.type = 7 then s.takeAck p
  else if p.type ≠ 1 && p.type ≠ 2 && p.type ≠ 3 then s
  else if p.attempt ≠ s.attemptTag then s.onRouter fun r => { r with stale := satInc r.stale }
  else if p.type = 1 then s.deliverPut p link u
  else if p.type = 2 then s.deliverGet p link u
  else s.deliverReply p link u

def packetDelivery (p : Packet) (arrivalLink : Fin 24) (upset : Upset) (s : State) : State := s.deliver p arrivalLink.val upset

/-- PACKET_DELIVERY (R145, R209, R245 to R247, R260, R360, R362). -/
def execPacketDelivery (p : Packet) (arrivalLink : Fin 24) (upset : Upset) (s : State) : Out :=
  commit s (packetDelivery p arrivalLink upset s)

end Sys2Proof.Machine
end

