-- ==== Sys2Proof/Machine/GatewayPort.lean ====
section
/-! DEFINITION. The Ethernet gateway's ports, tunnels and queue pairs (R232 to R236). -/
namespace Sys2Proof.Machine

/-! ## Ports -/

def gatewayModule (g : Fin 2) (powerClassDw : Nat) (s : State) : State :=
  let high := decide (300 < powerClassDw)
  let s := s.onGw g.val fun x =>
    { x with
      powerClass := BitVec.ofNat 8 (min 255 (powerClassDw / 10)), lowPower := high
      state := if high || x.state ≠ 2 then 1 else x.state }
  if high then s.note .gatewayModule (srcGateway g.val) else s

/-- GATEWAY_MODULE: a transceiver declares its power class, in tenths of a watt; above 30 W it stays in low-power mode and the
port stays down (R232, log entry 46). -/
def execGatewayModule (g : Fin 2) (powerClassDw : Nat) (s : State) : Out := commit s (gatewayModule g powerClassDw s)

def gatewayLinkUp (g : Fin 2) (s : State) : State :=
  if s.gwEnabled && (s.gw g.val).state = 1 && !(s.gw g.val).lowPower then s.onGw g.val fun x => { x with state := 2 } else s

/-- GATEWAY_LINK_UP (R232). -/
def execGatewayLinkUp (g : Fin 2) (s : State) : Out := commit s (gatewayLinkUp g s)

def gatewayLinkDown (g : Fin 2) (s : State) : State :=
  if (s.gw g.val).state = 2 then (s.onGw g.val fun x => { x with state := 1 }).note .gatewayLinkDown (srcGateway g.val) else s

/-- GATEWAY_LINK_DOWN (R232): a link that was up went down, whether or not the device state lets the port be used. -/
def execGatewayLinkDown (g : Fin 2) (s : State) : Out := commit s (gatewayLinkDown g s)

/-! ## Tunnels (R234, R235) -/

/-- Sequence number `a` lies before `b`, counted modulo 2^32. -/
def seqBefore (a b : Word) : Bool := a ≠ b && decide ((b - a).toNat < 2 ^ 31)

/-- Cumulative ACK: the packets before it are acknowledged, and any that are is progress. -/
def Tunnel.acked (ack : Word) (now : Nat) (t : Tunnel) : Tunnel :=
  let rest := t.unacked.filter fun e => !seqBefore e.1 ack
  if rest.length < t.unacked.length then { t with unacked := rest, stuck := 0, since := now } else t

/-- A fabric packet out of a tunnel enters the fabric here; FORWARDED counts it where it goes on (R264). -/
def State.fromTunnel (p : Packet) (s : State) : State :=
  if !packetHeaderOk p then s.badHeader p.destCore.toNat
  else if p.type = 6 then (s.onRouter fun r => { r with ejected := satInc r.ejected }).replicate none none p
  else
    let t := s.route none none p
    if p.coord = s.ownCoord || t.router.pathsLost ≠ s.router.pathsLost then t else t.onRouter fun r => { r with forwarded := satInc r.forwarded }

/-- Bytes that come in on a gateway port (R236). -/
def State.gwReceived (g n : Nat) (s : State) : State := s.onGw g fun x => { x with rxBytes := satAdd x.rxBytes n }

def tunnelPacket (g : Fin 2) (tunnel jobTag : BitVec 16) (seq ack : Word) (inner : Option Packet) (s : State) : State :=
  let n := g.val
  if s.gwState n ≠ 2 then s
  else
    let s := s.gwReceived n (tunnelBytes (s.gw n).ipv6 inner)
    match (s.gw n).tunnels.find? fun t => t.index = tunnel.toNat && t.jobTag = jobTag && !t.failed with
    | none => s
    | some t =>
      let s := (s.onTunnel n t.index (Tunnel.acked ack s.clock.uptime)).pumpTunnel n t.index
      match inner with
      | none => s
      | some p =>
        let next := if seq = t.rxNext then t.rxNext + 1 else t.rxNext
        let s := s.onTunnel n t.index fun y => { y with rxNext := next }
        let s := s.sendTunnel n t (((s.gw n).tunnels.find? fun y => y.index = t.index).map (·.txSeq) |>.getD t.txSeq) next none
        if seq = t.rxNext then s.fromTunnel p else s

/-- TUNNEL_PACKET: in SEQ order it is forwarded, out of order discarded; ACK is cumulative (R235). -/
def execTunnelPacket (g : Fin 2) (tunnel jobTag : BitVec 16) (seq ack : Word) (inner : Option Packet) (s : State) : Out :=
  commit s (tunnelPacket g tunnel jobTag seq ack inner s)

/-- The tunnel fails: its packets are discarded, and mailbox commands that wait on them end with 0x0604. -/
def State.failTunnel (g : Nat) (t : Tunnel) (s : State) : State :=
  let waits := s.router.transfers.filter fun x => t.carried.contains x.msgId
  let s := (s.onTunnel g t.index fun y => { y with unacked := [], waiting := [], stuck := 0, failed := true }).note .gatewayTunnelFail
    (srcGateway g) t.index
  (s.onRouter fun r => { r with transfers := r.transfers.filter fun x => !waits.contains x }).each waits fun s x =>
    s.complete 2 x.tag 0x0604

def tunnelResend (g : Fin 2) (tunnel : BitVec 16) (s : State) : State :=
  let n := g.val
  match (s.gw n).tunnels.find? fun t => t.index = tunnel.toNat && !t.unacked.isEmpty with
  | none => s
  | some t =>
    let s := s.advanceTo (t.since + 100000)
    if 8 ≤ t.stuck then s.failTunnel n t
    else
      let s := s.onTunnel n t.index fun y => { y with stuck := y.stuck + 1, since := s.clock.uptime }
      s.each t.unacked fun s e => s.sendTunnel n t e.1 t.rxNext (some e.2)

/-- TUNNEL_RESEND: 100 µs without progress; after 8 resends the tunnel fails (R235). -/
def execTunnelResend (g : Fin 2) (tunnel : BitVec 16) (s : State) : Out := commit s (tunnelResend g tunnel s)

/-! ## Queue pairs (R233) -/

/-- Registered memory: arenas and tensors. -/
def roceSpace (a : MemAddr) : Bool := a.space.toNat = spSpread || a.space.toNat = spNear || a.space.toNat = spSheet

/-- A RoCEv2 packet of a queue pair: from the GID entry that it names, to its far end (R233). -/
def Gateway.roceFrame (x : Gateway) (q : Qp) (kind : RoceKind) (psn : Nat) (data : Bytes) : RoceFrame :=
  { kind, vlan := x.vlan, ipv6 := x.ipv6, sourceGid := x.gids.getD q.gid.toNat 0, dest := q.remote, destGid := q.remoteGid, qpn := q.remoteQpn
    psn := BitVec.ofNat 32 (psn % 2 ^ 24), data }

/-- Bytes of a RoCEv2 packet's IP datagram beside its data: IP, UDP, BTH and ICRC (R235's example). -/
def roceOverhead (ipv6 : Bool) : Nat := if ipv6 then 64 else 44

/-- Send RoCEv2 packets of a queue pair. -/
def State.sendRoce (g : Nat) (q : Qp) (kind : RoceKind) (psn : Nat) (parts : List Bytes) (s : State) : State :=
  s.each parts.zipIdx fun s e =>
    (s.onGw g fun x => { x with txBytes := satAdd x.txBytes (roceOverhead x.ipv6 + e.1.length) }).emit
      (.roce g ((s.gw g).roceFrame q kind (psn + e.2) e.1))

/-- The operation's effect and what answers it, one item a packet; none where it is refused. -/
def State.roce (q : Qp) (op : RoceOp) (s : State) : Option (State × RoceKind × List Bytes) :=
  match op with
  | .sendMsg _ => some (s, .ack, [[]])
  | .write a data =>
    if !roceSpace a || (a.space.toNat = spSheet && s.job.dispatched) then none
    else
      match s.xferPlace a data.length false false with
      | .ok x => some (s.xferWrite x data, .ack, [[]])
      | .error _ => none
  | .read a n =>
    if !roceSpace a then none
    else
      match s.xferPlace a n true false with
      | .ok x =>
        if (s.xferPoison x n).isSome then none
        else some (s, .readResponse, if n = 0 then [[]] else chunks q.mtu n (s.xferRead x n))
      | .error _ => none
  | .cnp => none

/-- The runs of keys that an operation reads. -/
def State.roceReads (s : State) (op : RoceOp) : List (Nat × Nat) :=
  match op with
  | .read a n =>
    match s.xferPlace a n true false with
    | .ok x => s.xferKeys x n
    | .error _ => []
  | _ => []

/-- The runs of keys that an operation writes. -/
def State.roceWrites (s : State) (op : RoceOp) : List (Nat × Nat) :=
  match op with
  | .write a d =>
    match s.xferPlace a d.length false false with
    | .ok x => s.xferKeys x d.length
    | .error _ => []
  | _ => []

/-- Bytes that an operation brings in. -/
def roceBytes (op : RoceOp) : Nat :=
  match op with
  | .sendMsg d => d.length
  | .write _ d => d.length
  | _ => 0

/-- Change a queue pair. -/
def State.onQp (g : Nat) (qpn : Word) (f : Qp → Qp) (s : State) : State :=
  s.onGw g fun x => { x with qps := x.qps.map fun y => if y.qpn = qpn then f y else y }

/-- A request on a queue pair: with the expected PSN and no more data than the path MTU it is served (log entry 47). -/
def State.roceRequest (g : Nat) (q : Qp) (psn : Word) (op : RoceOp) (s : State) : State :=
  if psn ≠ q.recvPsn || q.mtu < roceBytes op then s
  else
    match s.roce q op with
    | none => s
    | some (s, kind, parts) =>
      (s.onQp g q.qpn fun y =>
        { y with
          recvPsn := BitVec.ofNat 32 ((y.recvPsn.toNat + parts.length) % 2 ^ 24)
          received := match op with
            | .sendMsg d => y.received ++ [d]
            | _ => y.received }).sendRoce g q kind psn.toNat parts

/-- A request on a queue pair is served, but not from a stack that serves none (R205); a READ of a channel that retrains waits in the detour queue
(R200). -/
def State.serveRoce (g : Nat) (qpn psn : Word) (op : RoceOp) (s : State) : State :=
  match (s.gw g).qps.find? fun q => q.qpn = qpn && q.ready with
  | none => s
  | some q =>
    if s.unserved (s.roceReads op ++ s.roceWrites op) then s
    else s.readOrPark (s.roceReads op) (fun hubs => .roce hubs g qpn psn op) fun s => s.roceRequest g q psn op

def rocePacket (g : Fin 2) (qpn psn : Word) (op : RoceOp) (congested : Bool) (s : State) : State :=
  let n := g.val
  if s.gwState n ≠ 2 then s
  else
    let s := s.gwReceived n (roceOverhead (s.gw n).ipv6 + roceBytes op)
    match (s.gw n).qps.find? fun q => q.qpn = qpn && q.ready with
    | none => s
    | some q =>
      let s := if congested then s.sendRoce n q .cnp 0 [[]] else s
      if op = .cnp then s.onQp n qpn fun y => { y with cnps := satInc y.cnps } else s.serveRoce n qpn psn op

/-- ROCE_PACKET: SEND, RDMA WRITE and RDMA READ on a ready queue pair, in PSN order, against registered memory. A packet that the network has marked
as congested draws a congestion notification, and a notification received is counted with its queue pair (R233, log entry 47). -/
def execRocePacket (g : Fin 2) (qpn psn : Word) (op : RoceRequest) (s : State) : Out :=
  commit s (rocePacket g qpn psn op.op op.congested s)

end Sys2Proof.Machine
end

