-- ==== Sys2Proof/Machine/NumFun.lean ====
section
/-! DEFINITION. The special functions of R125 and the powers of R173, correctly rounded: each is evaluated in fixed
point with 320 bits below the point and rounded once (log entries 14 and 15). -/
namespace Sys2Proof.Machine

/-- Bits below the point. -/
def fixBits : Nat := 320

/-- π × 2^640. -/
def piFix : Nat :=
  0x3243f6a8885a308d313198a2e03707344a4093822299f31d0082efa98ec4e6c89452821e638d01377be5466cf34e90c6cc0ac29b7c97c50dd3f84d5b5b54709179216d5d98979fb1bd1310ba698dfb5ac

/-- ln 2 × 2^320. -/
def ln2Fix : Nat :=
  0xb17217f7d1cf79abc9e3b39803f2f6af40f343267298b62d8a0d175b8baafa2be7b876206debac98

/-- 1.0 in fixed point. -/
def fixOne : Int := 2 ^ fixBits

/-- A finite value in fixed point, truncated. -/
def toFix : Val → Int
  | .fin neg m e =>
    let e' := e + fixBits
    let n : Nat := if 0 ≤ e' then m * 2 ^ e'.toNat else m / 2 ^ (-e').toNat
    if neg then -(n : Int) else (n : Int)
  | _ => 0

/-- A fixed-point number that approximates an irrational one, as a value with a sticky last bit. -/
def fromFix (i : Int) (shift : Int := 0) : Val :=
  .fin (decide (i < 0)) (2 * i.natAbs + 1) (shift - fixBits - 1)

def fixMul (a b : Int) : Int := a * b / fixOne

/-- Σ from term k on, each next term being the last one times `x` over `d k`, for `n` more terms. -/
def series (x : Int) (d : Nat → Nat) : Nat → Nat → Int → Int → Int
  | 0, _, _, acc => acc
  | n + 1, k, term, acc =>
    let t := fixMul term x / (d k : Int)
    series x d n (k + 1) t (acc + t)

/-- e^r for a small fixed-point r. -/
def expFix (r : Int) : Int :=
  series r (fun k => k) 90 1 fixOne fixOne

/-- e^x for a fixed-point x: the mantissa in fixed point, in 0.7 to 1.5, and the power of two. -/
def expParts (x : Int) : Int × Int :=
  let k := (2 * x + ln2Fix) / (2 * (ln2Fix : Int))
  (expFix (x - k * ln2Fix), k)

/-- ln y for a fixed-point y between 0.7 and 1.5: twice the area hyperbolic tangent of (y − 1) / (y + 1). -/
def lnFix (y : Int) : Int :=
  let z := (y - fixOne) * fixOne / (y + fixOne)
  let zz := fixMul z z
  let sum := (List.range 160).foldl
    (fun (acc : Int × Int) n => (fixMul acc.1 zz, acc.2 + acc.1 / ((2 * n + 1 : Nat) : Int))) (z, 0)
  2 * sum.2

/-- A positive finite value as y × 2^k with y in fixed point between 0.75 and 1.5. -/
def normParts (m : Nat) (e : Int) : Int × Int :=
  let l := bitLen m
  let y : Nat := m * 2 ^ fixBits / 2 ^ l
  if 4 * (y : Int) < 3 * fixOne then (2 * (y : Int), e + l - 1) else ((y : Int), e + l)

/-- sin r (odd) and cos r (even) by their series, for |r| below 0.8. -/
def sinFix (r : Int) : Int :=
  series (-(fixMul r r)) (fun k => 2 * k * (2 * k + 1)) 60 1 r r
def cosFix (r : Int) : Int :=
  series (-(fixMul r r)) (fun k => (2 * k - 1) * (2 * k)) 60 1 fixOne fixOne

/-- x = k × π/2 + r with |r| at most π/4: k modulo 4 and r in fixed point. -/
def reducePi (m : Nat) (neg : Bool) (e : Int) : Int × Int :=
  -- x and π/2 at 640 bits below the point
  let x0 : Nat := if 0 ≤ e + 640 then m * 2 ^ (e + 640).toNat else 0
  let x : Int := if neg then -(x0 : Int) else (x0 : Int)
  let half : Int := piFix / 2
  let k := (2 * x + half) / (2 * half)
  (k % 4, (x - k * half) / 2 ^ 320)

/-- Σ (−1)^n x^(2n+1) / (n! (2n+1)) for 400 terms. -/
def erfSeries (x : Int) : Int :=
  let xx := -(fixMul x x)
  ((List.range 400).foldl
    (fun (acc : Int × Int) n =>
      (fixMul acc.1 xx / ((n + 1 : Nat) : Int), acc.2 + acc.1 / ((2 * n + 1 : Nat) : Int))) (x, 0)).2

/-- √π in fixed point. -/
def sqrtPiFix : Nat := isqrt piFix

/-- A value of magnitude below every FP32 number, and one above them, of the sign given. -/
def tiny (neg : Bool) : Val := .fin neg 1 (-1000)
def huge (neg : Bool) : Val := .fin neg 1 1000

/-- One less a tiny amount, of the sign given. -/
def nearOne (neg : Bool) : Val := .fin neg (2 ^ 100 - 1) (-100)

def isPow2 (m : Nat) : Bool := m ≠ 0 && m == 2 ^ (bitLen m - 1)

/-- |x| ≥ n. -/
def atLeast (n : Nat) (m : Nat) (e : Int) : Bool := magLe n 0 m e

def spExp : Val → Val
  | .nan => .nan
  | .inf neg => if neg then .fin false 0 0 else .inf false
  | .fin neg m e =>
    if m = 0 then .fin false 1 0
    else if atLeast 200 m e then (if neg then tiny false else huge false)
    else
      let (y, k) := expParts (toFix (.fin neg m e))
      fromFix y k

/-- 2^x; exact where x is an integer. -/
def spExp2 : Val → Val
  | .nan => .nan
  | .inf neg => if neg then .fin false 0 0 else .inf false
  | .fin neg m e =>
    if m = 0 then .fin false 1 0
    else if atLeast 300 m e then (if neg then tiny false else huge false)
    else
      let x := toFix (.fin neg m e)
      if x % fixOne = 0 then .fin false 1 (x / fixOne)
      else
        let k := x / fixOne
        fromFix (expFix ((x - k * fixOne) * ln2Fix / fixOne)) k

def spLog : Val → Val
  | .nan => .nan
  | .inf neg => if neg then .nan else .inf false
  | .fin neg m e =>
    if m = 0 then .inf true
    else if neg then .nan
    else
      let (y, k) := normParts m e
      if y = fixOne && k = 0 then .fin false 0 0 else fromFix (k * ln2Fix + lnFix y)

/-- log2 x; exact where x is a power of two. -/
def spLog2 : Val → Val
  | .nan => .nan
  | .inf neg => if neg then .nan else .inf false
  | .fin neg m e =>
    if m = 0 then .inf true
    else if neg then .nan
    else if isPow2 m then .ofInt (e + bitLen m - 1)
    else
      let (y, k) := normParts m e
      fromFix (k * fixOne + lnFix y * fixOne / ln2Fix)

def spTanh : Val → Val
  | .nan => .nan
  | .inf neg => .fin neg 1 0
  | .fin neg m e =>
    if m = 0 then .fin neg 0 0
    else if atLeast 30 m e then nearOne neg
    else if magLe m e 1 (-60) then .fin neg (m * 2 ^ 100 - 1) (e - 100)
    else
      -- with E = e^(2|x|): (E − 1) / (E + 1)
      let (y, k) := expParts (2 * (toFix (.fin false m e)))
      let t := y * 2 ^ k.toNat
      fromFix ((if neg then -1 else 1) * ((t - fixOne) * fixOne / (t + fixOne)))

/-- 1 / (1 + e^−x), as E / (1 + E) with E = e^x. -/
def spSigm : Val → Val
  | .nan => .nan
  | .inf neg => .fin false (if neg then 0 else 1) 0
  | .fin neg m e =>
    if m = 0 then .fin false 1 (-1)
    else if atLeast 200 m e then (if neg then tiny false else nearOne false)
    else
      let (y, k) := expParts (toFix (.fin neg m e))
      -- numerator y × 2^k and denominator 1 + y × 2^k, both times 2^(−min k 0)
      let a := y * 2 ^ k.toNat
      let b := fixOne * 2 ^ (-k).toNat + a
      match quotient false a.toNat b.toNat 0 with
      | .fin s n f => if n % 2 = 1 then .fin s n f else .fin s (2 * n + 1) (f - 1)
      | v => v

def spErf : Val → Val
  | .nan => .nan
  | .inf neg => .fin neg 1 0
  | .fin neg m e =>
    if m = 0 then .fin neg 0 0
    else if atLeast 5 m e then nearOne neg
    else
      let s := erfSeries (toFix (.fin false m e))
      -- 2 / √π × the series
      fromFix ((if neg then -1 else 1) * (2 * s * fixOne / sqrtPiFix))

/-- sin and cos: quadrant k selects the series and the sign. -/
def spSin : Val → Val
  | .nan => .nan
  | .inf _ => .nan
  | .fin neg m e =>
    if m = 0 then .fin neg 0 0
    else if magLe m e 1 (-60) then .fin neg (m * 2 ^ 100 - 1) (e - 100)
    else
      let (k, r) := reducePi m neg e
      fromFix (if k = 0 then sinFix r else if k = 1 then cosFix r else if k = 2 then -(sinFix r) else -(cosFix r))
def spCos : Val → Val
  | .nan => .nan
  | .inf _ => .nan
  | .fin neg m e =>
    if m = 0 then .fin false 1 0
    else
      let (k, r) := reducePi m neg e
      fromFix (if k = 0 then cosFix r else if k = 1 then -(sinFix r) else if k = 2 then -(cosFix r) else sinFix r)

def spRcp (v : Val) : Val := (Val.fin false 1 0).div v

/-- 1 / √x. -/
def spRsqrt : Val → Val
  | .nan => .nan
  | .inf neg => if neg then .nan else .fin false 0 0
  | .fin neg m e =>
    if m = 0 then .inf neg
    else if neg then .nan
    else
      let m := if e % 2 = 0 then m else 2 * m
      let e := if e % 2 = 0 then e else e - 1
      let n := 2 ^ 512 / m
      let r := isqrt n
      if r * r * m = 2 ^ 512 then .fin false r (-256 - e / 2) else .fin false (2 * r + 1) (-257 - e / 2)

/-- Keep the leading 512 bits of a magnitude, with the exponent. -/
def trunc512 (m : Nat) (e : Int) : Nat × Int :=
  let l := bitLen m
  if l ≤ 512 then (m, e) else (m / 2 ^ (l - 512), e + (l - 512 : Nat))

/-- (m × 2^e)^t by squaring from bit `bits − 1` of t down, each product cut to 512 bits. -/
def powParts (m : Nat) (e : Int) : Nat → Nat → Nat × Int → Nat × Int
  | 0, _, acc => acc
  | b + 1, t, acc =>
    let sq := trunc512 (acc.1 * acc.1) (2 * acc.2)
    powParts m e b t (if natBit t b then trunc512 (sq.1 * m) (sq.2 + e) else sq)

/-- The odd part of a positive magnitude. -/
def oddPart : Nat → Nat → Int → Nat × Int
  | 0, m, e => (m, e)
  | n + 1, m, e => if m % 2 = 0 && m ≠ 0 then oddPart n (m / 2) (e + 1) else (m, e)

/-- A^T for a finite A: exact while the significand fits 512 bits, and with a sticky last bit beyond (log entry 15). 0^0 is 1.
A non-finite A follows IEEE 754 pown. -/
def powT (t : Nat) : Val → Val
  | .nan => if t = 0 then .fin false 1 0 else .nan
  | .inf neg => if t = 0 then .fin false 1 0 else .inf (neg && t % 2 = 1)
  | .fin neg m e =>
    let sign := neg && t % 2 = 1
    if t = 0 then .fin false 1 0
    else if m = 0 then .fin sign 0 0
    else
      let (m, e) := oddPart (bitLen m) m e
      if bitLen m * t ≤ 512 then .fin sign (m ^ t) (e * t)
      else if m = 1 then
        (if e * t < -2000 then tiny sign else if 2000 < e * t then huge sign else .fin sign 1 (e * t))
      else
        let (p, q) := powParts m e 33 t (1, 0)
        let top := q + bitLen p
        if top < -1000 then tiny sign else if 1000 < top then huge sign else .fin sign (2 * p + 1) (q - 1)

/-- 1 − A^T, formed exactly (R173). -/
def biasT (t : Nat) (a : Val) : Val :=
  (Val.fin false 1 0).add (powT t a).negate

end Sys2Proof.Machine
end

