-- ==== Sys2Proof/Machine/Vx.lean ====
section
/-! DEFINITION. The vector unit's macro-ops: VPROG (R140, R141), VRED (R126, R142) and SEED (R123, R143). -/
namespace Sys2Proof.Machine

/-! ## One lane -/

/-- What an element of the output view gives its lane: row, column, the elements of OP1 and OP2 with their overflow, and the draw
of each index. -/
structure LaneIn where
  row : Nat
  col : Nat
  a : Nat × Bool
  b : Nat × Bool
  draw : Nat → Nat

/-- A lane: its 64 registers, the value stored, and what its conversions raised. -/
structure Lane where
  regs : List Nat := List.replicate 64 0
  out : Option Nat := none
  raised : Raised := {}

/-- A 32-bit truth value. -/
def bit32 (b : Bool) : Nat := if b then 1 else 0

/-- A special function of R125 by its VOP. -/
def special (vop : Nat) (v : Val) : Val :=
  if vop = 0x28 then spRcp v
  else if vop = 0x29 then spRsqrt v
  else if vop = 0x2A then spExp v
  else if vop = 0x2B then spExp2 v
  else if vop = 0x2C then spLog v
  else if vop = 0x2D then spLog2 v
  else if vop = 0x2E then spTanh v
  else if vop = 0x2F then spSigm v
  else if vop = 0x30 then spErf v
  else if vop = 0x31 then spSin v
  else spCos v

/-- A saturating INT32 result on row `r`. -/
def satInt (r : Nat) (i : Int) : Nat × Raised :=
  let (w, sat) := isat i
  (w, if sat then { sats := 1, satRow := some r } else {})

/-- FP32 to INT32 (R117, R124). -/
def toInt32 (r : Nat) (w : Nat) : Nat × Raised :=
  let (i, overflowed, sat) := intConv (intRange 0xC) 0 0 (rd32 w)
  (unsigned 32 i, { overflowed, sats := sat.toNat, satRow := if sat then some r else none })

/-- The value that a vector instruction writes, with what it raised; a, b and c are its sources (R141). -/
def VInstr.value (i : VInstr) (x : LaneIn) (a b c : Nat) : Nat × Raised :=
  let imm := i.imm.toNat
  let plain := fun (n : Nat) => (n, ({} : Raised))
  let sa := signed 32 a
  let sb := signed 32 b
  match i.vop with
  | 0x01 => (x.a.1, { overflowed := x.a.2 })
  | 0x02 => (x.b.1, { overflowed := x.b.2 })
  | 0x03 => plain imm
  | 0x04 => satInt x.row (x.row + signed 32 imm)
  | 0x05 => satInt x.row (x.col + signed 32 imm)
  | 0x06 => plain (x.draw (imm % 4))
  | 0x08 => plain (fAdd a b)
  | 0x09 => plain (fSub a b)
  | 0x0A => plain (fMul a b)
  | 0x0B => plain (fDiv a b)
  | 0x0C => plain (fFma a b c)
  | 0x0D => plain (fSqrt a)
  | 0x0E => plain (fMin a b)
  | 0x0F => plain (fMax a b)
  | 0x10 => plain (fAbs a)
  | 0x11 => plain (fNeg a)
  | 0x12 => plain (bit32 (fLt a b))
  | 0x13 => plain (bit32 (fLe a b))
  | 0x14 => plain (bit32 (fEq a b))
  | 0x15 => plain (if c ≠ 0 then a else b)
  | 0x18 => satInt x.row (sa + sb)
  | 0x19 => satInt x.row (sa - sb)
  | 0x1A => satInt x.row (sa * sb)
  | 0x1B => plain (Nat.land a b)
  | 0x1C => plain (Nat.lor a b)
  | 0x1D => plain (Nat.xor a b)
  | 0x1E => plain (a / 2 ^ (b % 32))
  | 0x1F => plain (bit32 (decide (a < b)))
  | 0x20 => toInt32 x.row a
  | 0x21 => plain (rne32 (.ofInt sa))
  | _ => plain (rne32 (special i.vop (rd32 a)))

/-- One vector instruction on a lane. -/
def Lane.step (x : LaneIn) (l : Lane) (i : VInstr) : Lane :=
  let a := l.regs.getD i.a 0
  if i.vop = 0 then l
  else if i.vop = 0x3F then { l with out := some a }
  else
    let (v, r) := i.value x a (l.regs.getD i.b 0) (l.regs.getD i.c 0)
    { l with regs := l.regs.set i.dst v, raised := l.raised.join r }

/-- A vector program on one element: the value stored and what was raised. -/
def runLane (p : List VInstr) (x : LaneIn) : Nat × Raised :=
  let l := p.foldl (Lane.step x) {}
  (l.out.getD 0, l.raised)

/-! ## VPROG -/

/-- Element (r, c) of an input, broadcast over the output's shape (R140). -/
def broadcast (l : List (List (Nat × Bool))) (r c : Nat) : Nat × Bool :=
  let row := if l.length = 1 then l.getD 0 [] else l.getD r []
  if row.length = 1 then row.getD 0 (0, false) else row.getD c (0, false)

/-- The elements of a view as registers, each with its own overflow. -/
def State.elements (s : State) (v : View) : List (List (Nat × Bool)) :=
  (s.values v).map fun row => row.map (toRegister v.d.isInt)

/-- The draws of an element with a generator context (R122, R123). -/
def GenCtx.draws (g : GenCtx) (row col i : Nat) : Nat :=
  draw g.seed g.shard.toNat g.step.toNat (g.tag.toNat * 4 + i) ((g.row.toNat + row) % 2 ^ 32) ((g.col.toNat + col) % 2 ^ 32)

/-- A generator context that holds no seed draws as one of zeros; the loader lets no DRAW run without a SEED (R123). -/
def noCtx : GenCtx := { seed := 0, shard := 0, step := 0, tag := 0, row := 0, col := 0 }

def vprogEffect (q : Seat) (t : Nat) (m : MacroOp) (s : State) : State :=
  match s.seatView q m.op0, q.r.plan.vectors[opExt m.op0]? with
  | some o, some p =>
    let input := fun (w : BitVec 64) => ((s.seatView q w).map s.elements).getD []
    let a := input m.op1
    let b := input m.op2
    let g := (s.strand q.p t).ctx.getD noCtx
    let rows := (List.range o.d.rows).map fun r => (List.range o.d.cols).map fun c =>
      runLane p { row := r, col := c, a := broadcast a r c, b := broadcast b r c, draw := g.draws r c }
    let raised := rows.foldl (fun acc row => row.foldl (fun acc e => acc.join e.2) acc) ({} : Raised)
    s.writeOperand q m.op0 m.rnd.toNat (rows.map fun row => row.map fun e => fromRegister o.d.isInt e.1) raised
  | _, _ => s

/-- The work of VPROG. -/
def vprogWork (m : MacroOp) : UnitWork :=
  { reads := viewsOf [m.op1, m.op2], writes := viewsOf [m.op0]
    effect := fun _ q f s =>
      (vprogEffect q f.strand m s, f) }

def vprog (i : Issue) (m : MacroOp) (s : State) : State := s.issueUnit i ocVprog .vprog m noHub (vprogWork m)

/-- VPROG (R140, R141, R124, R125). -/
def execVprog (i : Issue) (m : MacroOp) (s : State) : Out := commit s (vprog i m s)

/-! ## VRED -/

/-- The largest power of two below n, for n ≥ 2. -/
def halfBelow (n : Nat) : Nat := 2 ^ (Nat.log2 (n - 1))

/-- The canonical tree of R126 over a list, with a node operation; `fuel` bounds its depth. -/
def treeFold {α : Type} (op : α → α → α) (zero : α) : Nat → List α → α
  | 0, l => l.headD zero
  | fuel + 1, l =>
    match l with
    | [] => zero
    | [x] => x
    | l =>
      let h := halfBelow l.length
      op (treeFold op zero fuel (l.take h)) (treeFold op zero fuel (l.drop h))

/-- FP32 reduction of a row or column (R126, R142). -/
def reduceFloat (kind : Nat) (l : List Nat) : Nat :=
  if kind = 0 then treeFold fAdd 0 l.length l
  else if kind = 1 then treeFold fAdd 0 l.length (l.map fun x => fMul x x)
  else if kind = 2 then treeFold fMax 0 l.length l
  else if kind = 3 then treeFold fMin 0 l.length l
  else treeFold fMax 0 l.length (l.map fAbs)

/-- The absolute value of an INT32 number. -/
def absInt (i : Int) : Int := if i = -2147483648 then signed 32 Config.absMin.toNat else i.natAbs

/-- INT32 reduction of a row or column of row `r` of the view: the value with its saturations. -/
def reduceInt (kind r : Nat) (l : List Nat) : Nat × Raised :=
  let add := fun (a b : Nat × Raised) =>
    let (w, x) := satInt r (signed 32 a.1 + signed 32 b.1)
    (w, (a.2.join b.2).join x)
  let exact := fun (f : Int → Int → Int) (g : Int → Int) =>
    (unsigned 32 (treeFold f 0 l.length (l.map fun x => g (signed 32 x))), ({} : Raised))
  if kind = 0 then treeFold add (0, {}) l.length (l.map fun x => (x, {}))
  else if kind = 1 then treeFold add (0, {}) l.length (l.map fun x => satInt r (signed 32 x * signed 32 x))
  else if kind = 2 then exact max id
  else if kind = 3 then exact min id
  else exact max absInt

def vredEffect (q : Seat) (m : MacroOp) (s : State) : State :=
  match s.seatView q m.op0, s.seatView q m.op1 with
  | some _, some v =>
    let kind := m.flags.toNat % 8
    let axis := m.flags.getLsbD 3
    let (rows, overflowed) := s.registers v
    let lines := if axis then columns v.d.cols rows else rows
    let results := lines.zipIdx.map fun e =>
      if v.d.isInt then reduceInt kind (if axis then 0 else e.2) e.1 else (reduceFloat kind e.1, {})
    let raised := results.foldl (fun acc e => acc.join e.2) ({ overflowed } : Raised)
    let vals := results.map fun e => fromRegister v.d.isInt e.1
    s.writeOperand q m.op0 m.rnd.toNat (if axis then [vals] else vals.map fun x => [x]) raised
  | _, _ => s

/-- The work of VRED. -/
def vredWork (m : MacroOp) : UnitWork :=
  { reads := viewsOf [m.op1], writes := viewsOf [m.op0], effect := fun _ q f s => (vredEffect q m s, f) }

def vred (i : Issue) (m : MacroOp) (s : State) : State := s.issueUnit i ocVred .vred m noHub (vredWork m)

/-- VRED (R126, R142). -/
def execVred (i : Issue) (m : MacroOp) (s : State) : Out := commit s (vred i m s)

/-! ## SEED -/

/-- A little-endian field of the step block in hub `h` (R169). -/
def State.stepField (s : State) (h off n : Nat) : Nat := leNat (s.bytesAt (hubcKey h (stepBlock + off)) n)

/-- The context that SEED sets (R123, R143). -/
def State.seedCtx (s : State) (p : Nat) (m : MacroOp) : GenCtx :=
  { seed := BitVec.ofNat 64 (s.stepField (hubOf p) 0x08 8)
    shard := BitVec.ofNat 32 (s.shardOf (natBits m.op0.toNat 15 0))
    step := BitVec.ofNat 32 (s.stepField (hubOf p) 0x00 4)
    tag := BitVec.ofNat 14 (natBits m.op0.toNat 29 16)
    row := BitVec.ofNat 32 m.op1.toNat
    col := BitVec.ofNat 32 m.op2.toNat }

/-- The work of SEED. -/
def seedWork (m : MacroOp) : UnitWork :=
  { effect := fun _ q f s =>
      (s.onStrand q.p f.strand fun x => { x with ctx := some (s.seedCtx q.p m) }, f) }

def seed (i : Issue) (m : MacroOp) (s : State) : State := s.issueUnit i ocSeed .seed m noHub (seedWork m)

/-- SEED (R123, R143). -/
def execSeed (i : Issue) (m : MacroOp) (s : State) : Out := commit s (seed i m s)

end Sys2Proof.Machine
end

