-- ==== Sys2Proof/Machine/Hq.lean ====
section
/-! DEFINITION. The hub engines' macro-ops: TURN (R212) and the update macro-ops UPDA, UPDB and UPDS (R171 to R181, R315). -/
namespace Sys2Proof.Machine

/-! ## TURN -/

/-- Rows become columns. -/
def transpose (cols : Nat) (rows : List (List Nat)) : List (List Nat) :=
  (List.range cols).map fun c => rows.map fun r => r.getD c 0

/-- The block of byte `off` of an area. -/
def State.areaBlock (s : State) (a : Area) (off : Nat) : Nat := s.areaByteKey a off / 64

def State.areaByteBad (s : State) (a : Area) (off : Nat) : Bool := s.poisonedAt (64 * s.areaBlock a off)

/-- The destination bytes of TURN that poisoned source bytes reach: elements, then scales (R197). -/
def State.turnBad (s : State) (dst src : View) : List Nat :=
  let b := fmtBits src.d.fmt
  (if (s.poisonIn src).isNone then []
   else
    (List.range src.d.rows).flatMap (fun r => (List.range src.d.cols).filterMap fun c =>
      if s.areaByteBad src.area (src.rowAt r + b * c / 8) then some (dst.rowAt c + b * r / 8) else none) ++
    (List.range src.d.scaleRows).flatMap fun i => (List.range src.d.scaleCols).filterMap fun j =>
      if s.areaByteBad src.area (src.scaleAt i + j) then some (dst.scaleAt j + i) else none)

/-- Poison the blocks of some bytes of a view's area. -/
def State.poisonBytes (a : Area) (offs : List Nat) (s : State) : State :=
  s.each offs fun s o => s.poisonBlock (s.areaBlock a o)

/-- A byte of every block of a view. -/
def View.blockBytes (d : View) : List Nat :=
  d.runs.flatMap fun r => (List.range (r.2 / 64 + 1)).map fun i => r.1 + min (64 * i) (r.2 - 1)

/-- The transposed copy. Bad parity in the engine, and a block of the turn buffer that ECC cannot correct, poison the whole destination (R197,
R360; log entries 35 and 138). -/
def turnEffect (q : Seat) (m : MacroOp) (u : Upset) (s : State) : State :=
  match s.seatView q m.op0, s.seatView q m.op1 with
  | some d, some v =>
    let staged := fun (b : Nat) => decide (turnKey 0 0 ≤ 64 * b) && decide (64 * b < turnKey 8 0)
    let s := match u with
      | .uncorrectable b => if staged b then s else s.poisonBlock b
      | _ => s
    let t := s.tile v
    let bad := match upsetFound u with
      | .pathParity _ _ => d.blockBytes
      | .uncorrectable b => if staged b then d.blockBytes else s.turnBad d v
      | _ => s.turnBad d v
    (s.putTile d { codes := transpose v.d.cols t.codes, scales := if v.d.sfmt = 0 then [] else transpose v.d.scaleCols t.scales }).poisonBytes d.area bad
  | _, _ => s

/-- The work of TURN. -/
def turnWork (m : MacroOp) : UnitWork :=
  { reads := viewsOf [m.op1], writes := viewsOf [m.op0]
    effect := fun u q f s =>
      ((turnEffect q m u s).onHub (hubOf q.p) fun v => { v with turnQueue := v.turnQueue ++ [(q.p, f.id)] }, f) }

def turn (i : Issue) (m : MacroOp) (s : State) : State := s.issueUnit i ocTurn .turn m (fun q _ => some (hubOf q.p)) (turnWork m)

/-- TURN (R212, R112). -/
def execTurn (i : Issue) (m : MacroOp) (s : State) : Out := commit s (turn i m s)

/-! ## Update programs (R172, R173) -/

/-- What an element gives its program. -/
structure UpdIn where
  w : Nat × Bool
  g : Nat × Bool
  state : Nat → Nat
  word : Nat → Nat
  t : Nat
  r : Nat → Nat

/-- A program on one element: its registers, the values sent to accumulators and states, the parameter stored, and the flag. -/
structure UpdLane where
  regs : List Nat := List.replicate 32 0
  accs : List (Nat × Nat) := []
  states : List (Nat × Nat) := []
  param : Option Nat := none
  overflowed : Bool := false

/-- The value that an update instruction writes to its destination register. -/
def UInstr.value (i : UInstr) (x : UpdIn) (a b c : Nat) : Nat :=
  let imm := i.imm.toNat
  match i.uop with
  | 0x01 => x.w.1
  | 0x02 => x.g.1
  | 0x03 => x.state (imm % 4)
  | 0x04 => x.word (imm % 64)
  | 0x05 => imm
  | 0x06 => rne32 (.ofInt x.t)
  | 0x07 => x.r (imm % 4)
  | 0x08 => fAdd a b
  | 0x09 => fSub a b
  | 0x0A => fMul a b
  | 0x0B => fDiv a b
  | 0x0C => fFma a b c
  | 0x0D => fSqrt a
  | 0x0E => rne32 (spRsqrt (rd32 a))
  | 0x0F => fMin a b
  | 0x10 => fMax a b
  | 0x11 => fAbs a
  | 0x12 => fNeg a
  | 0x13 => if fLt a b then 0x3F800000 else 0
  | 0x14 => if (rd32 c).isZero then b else a
  | 0x15 => rne32 (powT x.t (rd32 a))
  | _ => rne32 (biasT x.t (rd32 a))

/-- One update instruction. -/
def UpdLane.step (x : UpdIn) (l : UpdLane) (i : UInstr) : UpdLane :=
  let a := l.regs.getD i.a 0
  let k := i.imm.toNat % 4
  if i.uop = 0 then l
  else if i.uop = 0x18 then { l with accs := l.accs ++ [(k, fMul a a)] }
  else if i.uop = 0x19 then { l with accs := l.accs ++ [(k, a)] }
  else if i.uop = 0x20 then { l with param := some a }
  else if i.uop = 0x21 then { l with states := l.states ++ [(k, a)] }
  else
    { l with
      regs := l.regs.set i.dst (i.value x a (l.regs.getD i.b 0) (l.regs.getD i.c 0))
      overflowed := l.overflowed || (i.uop = 1 && x.w.2) || (i.uop = 2 && x.g.2) }

def runUpdate (g : UProg) (x : UpdIn) : UpdLane := g.instrs.foldl (UpdLane.step x) {}

/-! ## Where an update macro-op works (R171, R446) -/

/-- An update macro-op's tensor, program, local shard slot, variant copy and parameter view. -/
structure UpdSite where
  t : Tensor
  g : UProg
  slot : Nat
  variant : Nat
  view : View
  deriving DecidableEq, Repr

def State.updSite (s : State) (q : Seat) (m : MacroOp) : Option UpdSite :=
  let slot := opExt m.op0
  let variant := m.variantSlot.toNat
  match q.r.plan.updates[opExt m.op1]?, s.seatView q m.op0 slot variant with
  | some g, some view => (s.tensor? view.d.tensor).map fun t => { t, g, slot, variant, view }
  | _, _ => none

/-- Elements of view row `view` that lie in one slice row: the view's column of the first, its slice column, and how many (R446). -/
structure UpdPart where
  view : Nat
  at_ : Nat
  row : Nat
  col : Nat
  len : Nat
  deriving DecidableEq, Repr

/-- The elements of view row `r`: view column, slice row and slice column (R446). What lies in the padding of a slice row is no element
(log entry 139). -/
def UpdSite.cells (x : UpdSite) (r : Nat) : List (Nat × Nat × Nat) :=
  let b := fmtBits x.t.fmt
  let stride := 8 * x.t.rowStride
  ((List.range x.view.d.cols).map fun c =>
    let a := 8 * x.view.rowAt r + b * c
    (c, a / stride, a % stride / b)).filter fun e => decide (e.2.2 < x.t.cols)

/-- View row `r` cut at the ends of slice rows. -/
def UpdSite.parts (x : UpdSite) (r : Nat) : List UpdPart :=
  let cells := x.cells r
  (cells.map fun e => e.2.1).eraseDups.map fun row =>
    let l := cells.filter fun e => e.2.1 = row
    { view := r, at_ := (l.map fun e => e.1).headD 0, row, col := (l.map fun e => e.2.2).headD 0, len := l.length }

/-- Row stride, rows and bytes of one copy of a gradient buffer (log entry 36). -/
def Tensor.gradStride (t : Tensor) : Nat := roundUp (packedRow t.gradFmt t.cols) 64
def Tensor.gradRows (t : Tensor) : Nat := if t.tableRows then t.gRows else t.rows
def Tensor.gradCopy (t : Tensor) : Nat := t.gradRows * t.gradStride

/-- Row `row` of a gradient copy as a view of one row. -/
def UpdSite.gradView (x : UpdSite) (slots row : Nat) : View :=
  let t := x.t
  { area := if t.gradSpace = spSpread then .spread else .near t.hub
    d := { base := t.gradOff + (x.variant * slots + x.slot) * t.gradCopy + row * t.gradStride, space := t.gradSpace, fmt := t.gradFmt
           rows := 1, cols := t.cols, stride := t.gradStride } }

/-- The elements of state `k` of a part as a view. -/
def UpdSite.stateView (x : UpdSite) (k : Nat) (p : UpdPart) : View :=
  { area := x.view.area
    d := { base := x.t.partOffset (1 + k) + p.row * x.t.stateStride + 4 * p.col, space := spSheet, fmt := 0, rows := 1
           cols := p.len, stride := x.t.stateStride } }

/-- The count that row `row` reads, as a view. -/
def UpdSite.countView (x : UpdSite) (row : Nat) : View :=
  { area := x.view.area
    d := { base := x.t.partOffset 5 + (if x.t.tableRows then 4 * row else 0), space := spSheet, fmt := 0, rows := 1, cols := 1, stride := 64 } }


/-- T of a row (R180). -/
def State.updT (s : State) (x : UpdSite) (row : Nat) : Nat :=
  min (leNat (s.readSheet x.t.id x.slot x.variant 0 (x.countView row).d.base 4) + 1) (2 ^ 32 - 1)

/-- The parts a program runs on, each with the row of the gradient buffer; and the first skipped index of UPDS (R179). What UPDB and UPDA do on a
table, UPDS on a tensor that is none, and UPDS with more indices than G_ROWS is the model's choice (log entry 127). -/
def State.updParts (s : State) (q : Seat) (m : MacroOp) (x : UpdSite) : List (UpdPart × Nat) × Option Nat :=
  let parts := fun (i r : Nat) => (x.parts r).map fun p => (p, if x.t.tableRows then i else p.row)
  match s.seatView q m.op2 with
  | none => ((List.range x.view.d.rows).flatMap fun r => (x.parts r).map fun p => (p, p.row), none)
  | some v =>
    let (rows, _, bad) := (s.indices v).zipIdx.foldl
      (fun (a : List (UpdPart × Nat) × Int × Option Nat) e =>
        if decide (a.2.1 < e.1) && decide (0 ≤ e.1) && decide (e.1 < (x.view.d.rows : Int)) then (a.1 ++ parts e.2 e.1.toNat, e.1, a.2.2)
        else (a.1, a.2.1, a.2.2.or (some e.2)))
      ([], -1, none)
    (rows, bad)

/-- The views an update macro-op reads, the counts of its rows with them. -/
def updReads (m : MacroOp) (oc : Nat) (q : Seat) (s : State) : List View :=
  match s.updSite q m with
  | none => []
  | some x =>
    let parts := (s.updParts q m x).1
    let has := fun (u : Nat) => x.g.has u
    (if has 1 then [x.view] else []) ++ (if has 2 then parts.map fun e => x.gradView s.shardSlots e.2 else []) ++
      ([0, 1, 2, 3].flatMap fun k => if x.g.loads k then parts.map fun e => x.stateView k e.1 else []) ++
      ((parts.map fun e => x.countView e.1.row).eraseDups) ++
      viewsOf (if oc = ocUpda then [m.op2] else [m.op1, m.op2]) q s

/-- The lanes of a part. An element of an integer format loads as the FP32 value of its INT32 decoding, the model's choice between
R124 and R173 (log entry 126). -/
def State.updRow (s : State) (q : Seat) (m : MacroOp) (x : UpdSite) (e : UpdPart × Nat) : List UpdLane :=
  let p := e.1
  let reg := fun (vs : List (List Val)) => (vs.getD 0 []).map (toRegister false)
  let w := reg [(s.values { x.view with ro := x.view.ro + p.view, d := { x.view.d with rows := 1 } }).getD 0 []]
  let g := if x.g.has 2 then reg (s.values (x.gradView s.shardSlots e.2)) else []
  let st := [0, 1, 2, 3].map fun k => if x.g.loads k then reg (s.values (x.stateView k p)) else []
  let op1 := match s.seatView q m.op1 with
    | some v => if x.g.kind = 1 then (s.codes v).getD 0 [] else []
    | none => []
  let t := s.updT x p.row
  (List.range p.len).map fun c =>
    runUpdate x.g
      { w := w.getD (p.at_ + c) (0, false), g := g.getD (p.col + c) (0, false)
        state := fun k => ((st.getD k []).getD c (0, false)).1
        word := fun i => s.stepField x.t.hub (4 * i) 4
        t, r := fun i => op1.getD i 0 }

/-! ## Writing -/

/-- SHEET_LOST: the module enters FAULTED and broadcasts PEER_LOST naming itself (R315, R328). -/
def State.sheetLost (dk : Nat) (s : State) : State :=
  let (tensor, _, _, _, g) := dirParts dk
  (s.fault .sheetLost (srcHub (s.dirHub dk)) (tensor + g * 2 ^ 16)).fail

/-- Write bytes of a slice for an update: fresh for a versioned tensor, in place for another (R315, log entry 37). -/
def State.updWrite (x : UpdSite) (off : Nat) (data : Bytes) (s : State) : State :=
  if x.t.versioned then
    let (s, ok) := s.writeFresh x.t.id x.slot x.variant 0 off data
    if ok then s else s.sheetLost (dirKey x.t.id x.slot x.variant 0 (off / 4096))
  else s.writeCurrent x.t.id x.slot x.variant 0 off data

/-- The draw of mode 2 for slice row `row` and column `col` (R176). -/
def State.modeDraw (s : State) (x : UpdSite) (row col : Nat) : Nat :=
  let shard := s.shardOf x.slot
  updDraw (BitVec.ofNat 64 (s.stepField x.t.hub 0x08 8)) shard (s.stepField x.t.hub 0 4) (x.g.stream * 4) x.variant (shard * x.t.rows + row) col

/-- The conversions of a part's stored parameters. -/
def State.updParams (s : State) (x : UpdSite) (p : UpdPart) (lanes : List UpdLane) : List Conv :=
  lanes.zipIdx.map fun e => convert x.t.fmt x.g.rnd (if x.g.rnd = 2 then s.modeDraw x p.row (p.col + e.2) else 0) (rd32 (e.1.param.getD 0))

/-- Write one part's results: parameter, states and count. A stored parameter is FP32 or BF16 (R152), so an element begins on a byte. -/
def State.updStore (x : UpdSite) (p : UpdPart) (lanes : List UpdLane) (t : Nat) (s : State) : State × Raised :=
  let b := fmtBits x.t.fmt
  let cs := if x.g.has 0x20 then s.updParams x p lanes else []
  let s := if cs.isEmpty then s else s.updWrite x (x.view.rowAt p.view + b * p.at_ / 8) (packBits b (cs.map fun c => c.code))
  let vals := fun (k : Nat) => lanes.filterMap fun l => (l.states.find? fun e => e.1 = k).map fun e => e.2
  let s := s.each [0, 1, 2, 3] fun s k =>
    if (x.g.stores k).isEmpty then s
    else s.updWrite x (x.stateView k p).d.base ((vals k).flatMap fun w => leBytes 4 (rne32 (rd32 w)))
  let bad := [0, 1, 2, 3].any fun k => (vals k).any fpBad
  (s.updWrite x (x.countView p.row).d.base (leBytes 4 t), { raisedBy p.view cs with overflowed := bad || cs.any fun c => c.overflowed })

/-- Pass B: every part's program runs on current sheets; then the results are written. -/
def updateEffect (q : Seat) (m : MacroOp) (s : State) : State :=
  match s.updSite q m with
  | none => s
  | some x =>
    let (parts, bad) := s.updParts q m x
    let work := parts.map fun e => (e.1, s.updRow q m x e, s.updT x e.1.row)
    let (s, raised) := work.foldl
      (fun (a : State × Raised) e =>
        let (s, r) := a.1.updStore x e.1 e.2.1 e.2.2
        (s, a.2.join (r.join { overflowed := e.2.1.any fun l => l.overflowed }))) (s, {})
    let s := s.hubRaised x.t.hub raised
    match bad with
    | some i => s.note .updateIndex (srcHub x.t.hub) i
    | none => s

/-- Pass A: one tree sum for each accumulator, in row-major order (R174). -/
def gatherSums (q : Seat) (m : MacroOp) (s : State) : State :=
  match s.updSite q m, s.seatView q m.op1 with
  | some x, some o =>
    let lanes := (s.updParts q m x).1.flatMap (s.updRow q m x)
    let sums := (List.range x.g.nacc).map fun a =>
      let l := lanes.flatMap fun l => (l.accs.filter fun e => e.1 = a).map fun e => e.2
      rne32 (rd32 (treeFold fAdd 0 l.length l))
    (s.putRow o 0 sums).hubRaised x.t.hub { overflowed := sums.any fpBad || lanes.any fun l => l.overflowed }
  | _, _ => s

def updHub (m : MacroOp) (q : Seat) (s : State) : Option Nat := (s.updSite q m).map fun x => x.t.hub

/-- The work of UPDA. -/
def updaWork (m : MacroOp) : UnitWork :=
  { reads := updReads m ocUpda, effect := fun _ q f s => (gatherSums q m s, f) }

def upda (i : Issue) (m : MacroOp) (s : State) : State := s.issueUnit i ocUpda .upda m (updHub m) (updaWork m)

/-- UPDA (R171, R174). -/
def execUpda (i : Issue) (m : MacroOp) (s : State) : Out := commit s (upda i m s)

/-- The work of UPDB. -/
def updbWork (m : MacroOp) : UnitWork :=
  { reads := updReads m ocUpdb, effect := fun _ q f s => (updateEffect q m s, f) }

def updb (i : Issue) (m : MacroOp) (s : State) : State := s.issueUnit i ocUpdb .updb m (updHub m) (updbWork m)

/-- UPDB (R171, R173, R180, R315). -/
def execUpdb (i : Issue) (m : MacroOp) (s : State) : Out := commit s (updb i m s)

/-- The work of UPDS. -/
def updsWork (m : MacroOp) : UnitWork :=
  { reads := updReads m ocUpds, effect := fun _ q f s => (updateEffect q m s, f) }

def upds (i : Issue) (m : MacroOp) (s : State) : State := s.issueUnit i ocUpds .upds m (updHub m) (updsWork m)

/-- UPDS (R171, R179). -/
def execUpds (i : Issue) (m : MacroOp) (s : State) : Out := commit s (upds i m s)

/-! ## Hubs at work -/

/-- The frame in progress has a macro-op for the engines of hub `h`: no background work of the hub runs in it (R344). Its memory requests are no
such work: the price of the frame allows for retraining (R159; log entry 145). -/
def State.hubWorks (s : State) (h : Nat) : Bool :=
  match s.runningPlan with
  | none => false
  | some (r, v, i) =>
    s.hasWork && (s.coresOn r).any fun e => (List.range 64).any fun t => (r.plan.frameOps v r.role e.2.1 t i).any fun o =>
      let c := o.1.opcode
      (c = ocTurn && hubOf e.2.2 = h) || ((c = ocUpda || c = ocUpdb || c = ocUpds) && ((s.seat e.1).bind fun q => updHub o.1.op q s) = some h)

end Sys2Proof.Machine
end

