-- ==== Sys2Proof/Machine/Hbm.lean ====
section
/-! DEFINITION. HBM commands: patrol scrub (R198), spare-channel repair (R202, R203), retraining (R199 to R201, R213), and the end of a
directory sweep (R316, R327). -/
namespace Sys2Proof.Machine

/-! ## Scrub -/

/-- One block found wrong by the patrol scrub; a granule of a committed sheet is asked of the buddy (R198, R328). -/
def State.scrubbed (h k row : Nat) (s : State) (f : Fin 64 × BlockResult) : State :=
  match f.2 with
  | .corrected => s.hbmCorrected h k row
  | .uncorrectable =>
    let t := s.hbmUncorrectable h k row f.1.val
    match if row < s.rowSplit then none else s.sheetKeyAt h (s.nearOffset k row + 64 * f.1.val) with
    | some key => t.askBuddy (key / 64)
    | none => t

def scrub (hub : Fin 8) (channel : Fin 93) (row : Nat) (found : List (Fin 64 × BlockResult)) (s : State) : State :=
  if s.hbmUp && !(s.stack (stackOf hub.val channel.val)).stopped then
    s.each found fun s f => s.scrubbed hub.val channel.val row f
  else s

/-- SCRUB (R198). -/
def execScrub (hub : Fin 8) (channel : Fin 93) (row : Nat) (found : List (Fin 64 × BlockResult)) (s : State) : Out :=
  commit s (scrub hub channel row found s)

/-! ## Retraining -/

def retrainDue (hub : Fin 8) (channel : Fin 93) (why : DueCause) (s : State) : State :=
  let h := hub.val
  let k := channel.val
  if !s.hbmUp || (s.stack (stackOf h k)).stopped then s
  else
    match why with
    | .timer => (s.advanceTo ((s.lastTraining h k).1 + 10000000000)).makeDue h k
    | .temperature => if s.movedSince h k then s.makeDue h k else s
    | .interfaceErrors => s.makeDue h k

/-- RETRAIN_DUE (R199). -/
def execRetrainDue (hub : Fin 8) (channel : Fin 93) (why : DueCause) (s : State) : Out :=
  commit s (retrainDue hub channel why s)

/-- A parked read's hubs, and the same read waiting for others. -/
def Parked.hubs : Parked → List Nat
  | .read hubs _ _ _ _ => hubs
  | .packet hubs _ _ _ => hubs
  | .roce hubs _ _ _ _ => hubs

def Parked.without (h : Nat) : Parked → Parked
  | .read hubs c a b u => .read (hubs.filter fun x => x ≠ h) c a b u
  | .packet hubs p l u => .packet (hubs.filter fun x => x ≠ h) p l u
  | .roce hubs g q n o => .roce (hubs.filter fun x => x ≠ h) g q n o

/-- A read that waited in detour queues is served. -/
def State.serveParked (x : Parked) (s : State) : State :=
  match x with
  | .read _ c addr buddy u => s.hostRead c addr buddy u
  | .packet _ p link u => s.deliver p link u
  | .roce _ g qpn psn op => s.serveRoce g qpn psn op

/-- Once hub `h`'s detour queue is empty, the macro-ops and reads whose requests waited in it go on (R200). -/
def State.leaveQueue (h : Nat) (s : State) : State :=
  if (s.hub h).detour.isEmpty then
    let l := s.router.parked.map (Parked.without h)
    let s := (s.leaveDetour h).onRouter fun r => { r with parked := l.filter fun x => !x.hubs.isEmpty }
    s.each (l.filter fun x => x.hubs.isEmpty) fun s x => s.serveParked x
  else s

/-- The requests of hub `h`'s detour queue that `served` names leave it, in arrival order and ahead of newer ones (R200). -/
def State.drainDetour (h : Nat) (served : Detour → Bool) (s : State) : State :=
  (s.onHub h fun v => { v with detour := v.detour.filter fun d => !served d, turnedAway := 0 }).leaveQueue h

/-- Training of a channel ends: its requests are served. -/
def State.endRetrain (h k : Nat) (s : State) : State :=
  (s.onHub h fun v => { v with retraining := none, retries := 0 }).drainDetour h fun d => d.chan = k

def retrainDone (hub : Fin 8) (channel : Fin 93) (converged : Bool) (s : State) : State :=
  let h := hub.val
  let k := channel.val
  let t := stackOf h k
  if (s.hub h).retraining ≠ some k then s
  else if converged then
    let temp := (s.stack t).heat.temp
    let s := (s.endRetrain h k).undue h k
    let s := s.onHub h fun v => { v with trained := Tab.set none k (some (s.clock.uptime, temp)) v.trained }
    let s := s.onStack t fun v => { v with retrains := satInc v.retrains }
    s.startIdle h
  else if (s.hub h).retries = 0 then s.onHub h fun v => { v with retries := 1 }
  else
    let s := ((s.onHub h fun v => { v with retraining := none, retries := 0 }).undue h k).fault .hbmRetrainFail (srcStack t) (hbmDetail k 0) k
    ((s.failChannel h k true).drainDetour h fun d => d.chan = k).startIdle h

/-- RETRAIN_DONE (R200, R201). -/
def execRetrainDone (hub : Fin 8) (channel : Fin 93) (converged : Bool) (s : State) : Out :=
  commit s (retrainDone hub channel converged s)

def hbmRetrainOverdue (hub : Fin 8) (channel : Fin 93) (s : State) : State :=
  let h := hub.val
  let k := channel.val
  match (s.hub h).due.find? fun e => e.1 = k with
  | none => s
  | some e =>
    if (s.hub h).overdue.contains k then s
    else
      let s := (s.advanceTo (e.2 + 30000000000)).onHub h fun v => { v with overdue := v.overdue ++ [k] }
      let s := s.fault .hbmRetrainOverdue (srcStack (stackOf h k)) (hbmDetail k 0) k
      if s.job.attempt.isNone then s.startDue h true else s

/-- HBM_RETRAIN_OVERDUE (R201). -/
def execHbmRetrainOverdue (hub : Fin 8) (channel : Fin 93) (s : State) : Out :=
  commit s (hbmRetrainOverdue hub channel s)

/-! ## Repair -/

/-- Rows that a copy lost, first and last: [15:0] the hub channel, [39:16] the first, [63:40] the last (log entry 23). -/
def lostDetail (k first last : Nat) : Nat := k + first * 2 ^ 16 + last * 2 ^ 40

/-- HBM_REPAIR_LOST, once a repair (R203): a blind copy loses every allocated row, and any other the blocks it could not read, but for those that
have been written whole to the spare since. -/
def State.repairLost (h : Nat) (r : Repair) (lost : List Nat) (s : State) : State :=
  let rows := if r.blind then (s.allocatedRows h).flatMap fun e => [e.1, e.1 + e.2 - 1] else lost.map fun b => b / 64 % 524288
  if rows.isEmpty then s
  else
    let bad := if r.blind then [] else lost.filter fun b => !r.written.contains (b % (524288 * 64))
    let s := s.each bad fun s b => s.poisonBlock (hbmKey h r.chan 0 0 / 64 + b % (524288 * 64))
    s.note .hbmRepairLost (srcStack (stackOf h r.chan)) (lostDetail r.chan (rows.foldl min 524287) (rows.foldl max 0)) r.chan

def hbmRepairDone (hub : Fin 8) (lost : List Nat) (s : State) : State :=
  let h := hub.val
  match (s.hub h).repair with
  | none => s
  | some r =>
    let t := stackOf h r.chan
    let s := s.repairLost h r lost
    let s := (s.onHub h fun v => { v with repair := none }).drainDetour h fun d => d.chan = r.chan
    let s := s.onStack t fun v => { v with spareUsed := true, replaced := BitVec.ofNat 5 (r.chan % 31) }
    let s := s.note .hbmRepairDone (srcStack t) (hbmDetail r.chan 0) r.chan
    (s.nextRepair h).startIdle h

/-- HBM_REPAIR_DONE (R202, R203). -/
def execHbmRepairDone (hub : Fin 8) (lost : List Nat) (s : State) : Out :=
  commit s (hbmRepairDone hub lost s)

/-! ## The directory sweep -/

/-- An entry in the form it resolves to (R316); a version of the running attempt stays fresh. -/
def Hub.normalised (h : Hub) (e : DirEntry) : DirEntry :=
  let (cur, prv, fresh) := h.resolve e
  { cur, prv, frs := fresh, epoch := if fresh then e.epoch else if prv then BitVec.ofNat 24 h.commit else 0 }

/-- An entry of the buddy areas: what arrived of the copy that is coming in stays as it is, and nothing else there is fresh (R322, R327). -/
def Hub.normalisedBuddy (h : Hub) (comes : Bool) (e : DirEntry) : DirEntry :=
  let n := h.normalised { e with frs := false }
  if comes && e.frs then { n with frs := true, epoch := e.epoch } else n

/-- The granule comes in with the buddy copy under way. -/
def Seal.brings (v : Seal) (k : Nat) : Bool := v.copyIn.any fun e => e.2.contains k

/-- Rewrite every entry of the hub's tensors. -/
def State.normaliseDir (h : Nat) (s : State) : State :=
  let v := s.hub h
  s.each ((s.dir.filter fun e => s.dirHub e.1 = h).map fun e => e.1) fun s k =>
    s.onDir (Tab.modify {} k (if (dirParts k).2.2.2.1 = 0 then v.normalised else v.normalisedBuddy (s.sealSt.brings k)))

/-- The registers at the end of a rollback's sweep (R327). -/
def Hub.rolledBack (v : Hub) : Hub :=
  if v.rollback then { v with commit := v.prevCommit, released := v.prevCommit, rollback := false } else v

/-- A sweep works in frames that the power controller has cleared for it and that give the hub's engines no work, or at once with no job bound
(R159, R344). -/
def State.sweepRuns (s : State) (h : Nat) : Bool := s.job.bind.isNone || (s.power.cleared.contains 5 && !s.hubWorks h)

/-- COMMIT_STEP goes back with C (R327, R330). -/
def Seal.rolledStep (v : Seal) : Seal := { v with commitStep := (v.commits.head?.map fun k => k.step).getD 0 }

def sweepDone (hub : Fin 8) (s : State) : State :=
  let h := hub.val
  if (s.hub h).sweeping && s.sweepRuns h then
    let t := ((s.normaliseDir h).onHub h fun v => { v.rolledBack with sweeping := false }).onPower fun p => { p with background := true }
    if (s.hub h).rollback then t.onSealSt Seal.rolledStep else t
  else s

/-- SWEEP_DONE (R316, R327). -/
def execSweepDone (hub : Fin 8) (s : State) : Out :=
  commit s (sweepDone hub s)

end Sys2Proof.Machine
end

