-- ==== Sys2Proof/Machine/JobCtl.lean ====
section
/-! DEFINITION. Job control: JOB_BIND, JOB_UNBIND and the end of a binding (R39, R390, R403), loading and evicting plans (R79, R82, R149,
R160 to R164), dispatching them (R44, R157, R168), and SCOREBOARD_RUN (R70 to R72, R409). -/
namespace Sys2Proof.Machine

/-! ## JOB_BIND -/

/-- The frame parameters with every default resolved; none where one is out of range (R39). -/
def resolveBind (p : BindParams) (licensed : Bool) : Option Bind :=
  let per := p.tickPeriod.toNat
  let g := if p.guardBand = 0 then max 40 (ceilDiv per 50) else p.guardBand.toNat
  let h := if p.horizon = 0 then 128 else p.horizon.toNat
  let r := if p.retries = 0 then 2 else p.retries.toNat
  if per < 2000 || 67108864 < per || g < 40 || per < 2 * g || p.baseTick.toNat % per ≠ 0 || p.jobTag = 0 || h < 2 || 4095 < h ||
      15 < r then none
  else
    let a := if p.abortSeal = 0 then ceilDiv (30000 + g) per else p.abortSeal.toNat
    let bytes := leBytes 4 per ++ leBytes 4 g ++ leBytes 8 p.baseTick.toNat ++ leBytes 2 p.jobTag.toNat ++ leBytes 2 h ++ leBytes 1 r ++
      leBytes 1 a
    some
      { period := per, guardNs := g, baseTick := p.baseTick.toNat, jobTag := p.jobTag, horizon := h, retries := r, abortSeal := a
        hash := crc16 bytes, cartouche := licensed }

/-- A hub with its epoch registers at the start of a binding. -/
def Hub.unbound (h : Hub) : Hub :=
  { h with attempt := 0, commit := 0, prevCommit := 0, released := 0, rollback := false, sweeping := false, turnQueue := [] }

/-- Every hub cache at zero (R207, R403). -/
def State.clearHubCaches (s : State) : State :=
  (s.onMem (Tab.clear (hubcKey 0 0) (hubcKey 8 0))).onPoison (Tab.clear (hubcKey 0 0 / 64) (hubcKey 8 0 / 64))

/-- The step page's RO fields at their reset values (R167). -/
def HostRegs.unlatched (r : HostRegs) : HostRegs :=
  { r with
    lossScale := 0x3F800000, invLossScale := 0x3F800000, goodSteps := 0, skips := 0, latchedStep := 0xFFFFFFFF, lastDecision := 0
    scaleLog2 := 0 }

/-- Bind a job: the job's state and the job-scoped counters start anew (R37, R330, R403). -/
def State.bindJob (b : Bind) (s : State) : State :=
  let m := s.clock.meridian
  let s := s.onJob fun j =>
    { bind := some b, frame := b.frameAt m, tickAt := m / b.period * b.period, score := j.score
      slots := j.slots.filter fun e => e.1 = 4 }
  let s := (s.onRegs HostRegs.unlatched).onSealSt fun _ => {}
  let s := (s.onHubs fun t => Tab.keep {} Hub.unbound t).clearHubCaches.onDir fun _ => []
  let s := (s.onLog fun l => { l with integ := 0 }).onPower fun p =>
    { p with raise := 0, fallback := false, fallbackBarred := false, needHits := 0, needZeros := 0, nPow := 0 }
  let s := (s.setClock 0).settleVolts
  let s := (s.onRouter fun r => { r with aborts := [] }).onTopo fun t => { gaz := t.gaz, chart := t.chart, nextGaz := t.nextGaz }
  let s := s.onSec fun v => { v with digests := [], prevDigests := [] }
  ((s.mirrorWrite 0x2028 (List.replicate 16 0)).mirrorWrite 0x2F00 (List.replicate 64 0)).enter .running

def State.hostBind (p : BindParams) (c : Cmd) (s : State) : State :=
  if s.job.bind.isSome then s.finish 1 c 0x0211
  else if s.dev.state ≠ .ready then s.finish 1 c 0x0201
  else
    match resolveBind p (s.licensed 4) with
    | none => s.finish 1 c 0x011C
    | some b => (s.bindJob b).finish 1 c 0

def jobBind (c : Cmd) (p : BindParams) (s : State) : State := s.command 1 0x0101 c false (State.hostBind p c)

/-- JOB_BIND (R39, R403). -/
def execJobBind (c : Cmd) (p : BindParams) (s : State) : Out := commit s (jobBind c p s)

/-! ## The end of a binding -/

/-- The job ends: dispatches that are left complete, and plans, gazetteer, chart, registrations and arenas are freed (R403). A
scoreboard run keeps its plan. -/
def State.endBinding (s : State) : State :=
  let s := s.endDispatches (fun _ => true) 0x0703 0
  let s := match s.topo.reshape with
    | some r => s.complete 3 r.tag 0x0703
    | none => s
  let draining := s.job.draining
  let s := s.each ((s.job.slots.filter fun e => e.1 ≠ 4).filterMap fun e => e.2.plan) fun s r => s.dropLines r
  let s := s.stopWork.onJob fun j => { score := j.score, slots := j.slots.filter fun e => e.1 = 4 }
  let s := (s.onTopo fun _ => {}).onSealSt fun v =>
    { v with vote := none, decision := none, commits := [], confirming := [], confirmed := none, doneWaiting := [], copyOut := none
             copyQueued := none, copyIn := none, granules := [], flipped := [], asked := [], again := [] }
  let s := ((s.clearHubCaches.onDir fun _ => []).onSec fun v => { v with digests := [], prevDigests := [] }).releaseWaiting
  -- no job is bound: settings that waited apply, a floor whose hold is over is left, and due channels retrain (R199, R335, R347)
  let s := if s.power.floor && s.power.holdDone then s.leaveFloor else s
  let s := (s.enter .ready).applyPower.each (List.range 8) fun s h => s.startIdle h
  match draining with
  | some t => s.complete 1 t 0
  | none => s

/-- The module leaves the job in the middle of a binding: its work is over at once (R302, R308). -/
def State.leaveJob (status : Nat) (s : State) : State := (s.endDispatches (fun _ => true) status 0).endBinding

/-- RELEASE of the last commit is held and no sweep runs (R403). -/
def State.settled (s : State) : Bool := s.released && (List.range 8).all fun h => !(s.hub h).sweeping

/-- Nothing of the job is left to wait for. -/
def State.drained (s : State) : Bool :=
  s.dev.state == .draining && s.job.bind.isSome && s.job.attempt.isNone && s.job.dispatches.isEmpty && s.sealSt.confirming.isEmpty &&
    (s.job.suspended || s.settled)

def bindingEnd (s : State) : State :=
  if s.job.hangEnd && s.job.attempt.isNone then s.endBinding.hangLeave
  else if s.drained then s.endBinding
  else s

/-- BINDING_END (R390, R403); after a hang recovery with no step running, the module leaves the job (R373, log entry 29). -/
def execBindingEnd (s : State) : Out := commit s (bindingEnd s)

/-- A dispatch whose first frame has not begun and that is not of the step in progress (log entry 48). -/
def State.notBegun (s : State) (d : Dispatch) : Bool := !d.begun && !d.done && s.job.attempt.all fun a => a.step ≠ d.step

def State.hostUnbind (c : Cmd) (s : State) : State :=
  if s.dev.state ≠ .running then s.finish 1 c 0x0201
  else
    let s := s.endDispatches s.notBegun 0x0703 0
    (s.onJob fun j => { j with draining := some c.tag }).enter .draining

def jobUnbind (c : Cmd) (s : State) : State := s.command 1 0x0102 c false (State.hostUnbind c)

/-- JOB_UNBIND (R403). -/
def execJobUnbind (c : Cmd) (s : State) : Out := commit s (jobUnbind c s)

/-! ## Code regions (R79, R80) -/

/-- The first line of every strand of every core-table entry. -/
def Plan.lineTable (p : Plan) (role home : Nat) : Table Nat :=
  (List.range 120).foldl
    (fun t n =>
      match (p.code[role]?).bind fun x => x.cores.getD n none with
      | none => t
      | some b =>
        ((List.range 64).foldl
          (fun (a : Table Nat × Nat) k =>
            (Tab.set 0 (64 * n + k) a.2 a.1, a.2 + ceilDiv (p.nativeLen role b k) 64)) (t, home * regionLines)).1) []

/-- Code lines of each physical core: both cores of a pair hold the pair's code (R79, R363). -/
def State.codeTable (s : State) (p : Plan) (role : Nat) : Table Nat :=
  (List.range 120).foldl (fun t n =>
    let lines := p.nativeBytes role n / 2048
    if lines = 0 then t
    else
      let k := s.coreFor p.twin n
      let t := Tab.set 0 k lines t
      if p.twin then Tab.set 0 (k + 1) lines t else t) []

/-- A region that no plan resident or being loaded uses. -/
def State.freeHome (s : State) : Nat :=
  let used := s.job.slots.flatMap fun e => (e.2.plan.toList ++ (e.2.loading.map fun l => l.resident).toList).map Resident.home
  ((List.range 12).find? fun k => !used.contains k).getD 0

/-! ## Loading -/

/-- WIDTH against the bonded ports (R149). -/
def State.widthFault (s : State) (p : Plan) : Option Nat :=
  (p.width.getD []).zipIdx.findSome? fun e =>
    if e.1 = 0 then none
    else if (s.bondedPort e.2).isNone then some 0x0602
    else if s.unitsAt e.2 < e.1 then some 0x0601
    else none

def needNone (f : Option Nat) : Chk Unit :=
  match f with
  | some status => refuse status
  | none => .ok ()

/-- Every core that a role needs is available (R16, R363). -/
def State.coresReady (s : State) (p : Plan) (role : Nat) : Bool :=
  (List.range 120).all fun n =>
    ((p.code[role]?).bind fun x => x.cores.getD n none).isNone ||
      (if p.twin then decide (n < s.twinPairs.length) else n < s.coreMap.length && !(s.core (s.phys n)).retired)

/-- Checks 2 to 10 of R154, then R16 and R149. -/
def State.verifyPlan (s : State) (p : Plan) (role slot : Nat) : Chk Unit := do
  s.check2 p
  check3 p
  s.check4 p
  s.checkCopies p
  s.check5 p
  check6 p
  s.check7 p
  s.check8 p
  s.check9 p role slot
  s.check10 p
  need (s.coresReady p role) 0x0301
  needNone (s.widthFault p)

/-- A verified plan as a resident slot holds it (R159, R160, R337). -/
def State.translated (s : State) (p : Plan) (role : Nat) : Resident :=
  let times := s.frameTimes p
  { plan := p, role, bytes := ((List.range 120).map (p.nativeBytes role)).sum, headroom := s.headroomOf times, wc := times
    lines := p.lineTable role s.freeHome, code := s.codeTable p role, energies := p.variants.map fun v => (v.contour, v.est), measured := [] }

/-- The replay-eligible macro-ops of the module's role: core-table entry, strand and index (R186). -/
def State.replayEligible (s : State) (r : Resident) : List (Nat × Nat × Nat) :=
  r.plan.uses.flatMap fun u =>
    if u.role ≠ r.role || !(u.op.opcode = ocVprog || u.op.opcode = ocVred || u.op.opcode = ocFill) then []
    else
      (r.plan.coresOf u.role u.block).filterMap fun n =>
        let w := u.op.op.op0
        match r.plan.tiles[opDesc w]? with
        | none => none
        | some d =>
          if s.replayable r.plan r.role n (opDesc w) (viewOf d w (s.coreFor r.plan.twin n) 0) then some (n, u.strand, u.idx) else none

/-- Pack flags eight to a byte, the first in bit 0. -/
def flagBytes (l : List Bool) : Bytes :=
  (chunks 8 (l.length + 1) l).map fun g => BitVec.ofNat 8 ((g.zipIdx.map fun e => if e.1 then 2 ^ e.2 else 0).sum)

/-- The load report (R160, R186; its layout is log entry 50). -/
def State.loadReport (s : State) (r : Resident) : Bytes :=
  r.plan.bodyHash ++ (List.range 120).flatMap (fun n => leBytes 4 (r.plan.nativeBytes r.role n)) ++
    (r.wc.flatMap fun e =>
      leBytes 4 e.1 ++ leBytes 4 e.2.length ++ (e.2.flatMap fun w => leBytes 4 w) ++
        flagBytes ((r.headroom.find? fun h => h.1 = e.1).map (fun h => h.2) |>.getD [])) ++
    (s.replayEligible r).flatMap fun x => leBytes 1 x.1 ++ leBytes 1 x.2.1 ++ leBytes 4 x.2.2

/-- The dispatch's phase is over: its frames have run, whether or not its step is decided (R282). -/
def State.phaseOver (s : State) (d : Dispatch) : Bool := d.was.isSome || (d.begun && decide (d.first + s.framesOf d ≤ s.job.now))

/-- A slot is being loaded, or a dispatch of it is pending or running (R157, R164). -/
def State.slotBusy (s : State) (slot : Nat) : Bool :=
  (Tab.get {} slot s.job.slots).loading.isSome || s.job.dispatches.any fun d => d.slot = slot && !s.phaseOver d

/-- The plan that a slot will hold: the resident one, or that of an inset in translation, which took the slot at the switch (R308). -/
def PlanSlot.holds (v : PlanSlot) : Option Plan :=
  (v.plan.map fun r => r.plan).or ((v.loading.filter fun l => l.output.isEmpty).map fun l => l.resident.plan)

/-- The plans resident in the other slots, and those of staged insets that would stand beside this one, have the plan's level (R10, R153; log
entry 148). -/
def State.sameLevel (s : State) (p : Plan) (slot : Nat) : Bool :=
  ((List.range 4).all fun k => k = slot || ((Tab.get {} k s.job.slots).holds).all fun r => r.level = p.level) &&
    s.topo.insets.all fun i => slot < i.plans.length || i.plans.all fun q => q.level = p.level

/-- Everything a load checks before it places the report: the new resident and whether it shares another slot's code. -/
def State.loadPlan (s : State) (slot : Nat) (file : Bytes) : Chk (Resident × Bool) := do
  let p ← parsePlan file
  need (!p.scoreboard) 0x0202
  match s.roleOf p s.ownCoord with
  | none => refuse 0x0206
  | some role =>
    match (List.range 4).findSome? fun k => if k = slot then none else (s.resident k).filter fun r => r.plan.bodyHash = p.bodyHash with
    | some r =>
      -- the code and its verification are shared, the header is the file's own (R8, R161)
      s.check10 p
      need (s.coresReady p role) 0x0301
      need (s.sameLevel p slot) 0x0204
      return ({ r with plan := p, energies := p.variants.map fun v => (v.contour, v.est), measured := [] }, true)
    | none =>
      s.verifyPlan p role slot
      need (s.sameLevel p slot) 0x0204
      return (s.translated p role, false)

/-- The loader places one copy of a plan's constants in each hub's near memory (R135). -/
def State.placeConstants (slot : Nat) (p : Plan) (s : State) : State :=
  s.each (List.range 8) fun s h => s.writeArea (.const slot h) 0 (p.constants.getD [])

/-- The cores' code lines of a plan are written anew: no block of them is poisoned (R213). -/
def State.rewriteCode (r : Resident) (s : State) : State :=
  s.each r.code fun s e =>
    s.each (List.range (ceilDiv e.2 2)) fun s i =>
      let q := s.physKey (codeKey e.1 (r.home * regionLines + 2 * i) 0)
      (s.onPoison (Tab.clear (q / 64) (q / 64 + 64))).hbmWritten q (List.replicate 4096 0)

/-- A plan leaves its slot: a dispatch whose phase is over keeps what its commit names of it (R161, R282, R427). -/
def State.vacate (slot : Nat) (s : State) : State :=
  match s.resident slot with
  | none => s
  | some r =>
    let keep := fun (d : Dispatch) =>
      if d.slot = slot && d.was.isNone then { d with was := some (r.plan.bodyHash, r.plan.level, r.plan.profile) } else d
    (s.dropLines r).onJob fun j => { j with dispatches := j.dispatches.map keep, slots := Tab.set {} slot {} j.slots }

/-- Put a plan into a slot: its plan before it leaves (R160, R161). -/
def State.install (slot : Nat) (r : Resident) (s : State) : State :=
  let s := s.vacate slot
  let s := (s.onJob fun j => { j with slots := Tab.set {} slot { plan := some r } j.slots }).dropLines r
  (s.placeConstants slot r.plan).rewriteCode r

/-- PLAN_LOAD's work: a shared body is resident at once, any other when its translation ends (R161). -/
def State.hostLoad (fileLen : Word) (buffer : Bytes) (c : Cmd) (s : State) : State :=
  let slot := c.mboxByte.toNat
  let at_ := roundUp fileLen.toNat 4096
  let no := fun (status : Nat) => s.finish 1 c status ({} : PlanPlace).detail
  if 3 < slot then no 0x011C
  else if s.job.bind.isNone then no 0x0207
  else if s.slotBusy slot then no 0x0203
  else if c.length.toNat < fileLen.toNat then no 0x0303
  else
    match s.loadPlan slot (buffer.take fileLen.toNat) with
    | .error e => s.finish 1 c e.status e.detail
    | .ok (r, shared) =>
      let report := s.loadReport r
      let place := BitVec.ofNat 64 (c.buffer.toNat + at_)
      if c.length.toNat < at_ + report.length then no 0x0303
      else if shared then (s.install slot r).complete 1 c.tag 0 0 place report
      else
        s.onJob fun j => { j with slots := Tab.modify {} slot (fun v =>
          { v with loading := some { resident := r, tag := c.tag, mailbox := 1, output := report, buffer := place } }) j.slots }

def planLoad (c : Cmd) (fileLen : Word) (buffer : Bytes) (s : State) : State :=
  s.command 1 0x0103 c true (State.hostLoad fileLen buffer c)

/-- PLAN_LOAD (R160 to R164). -/
def execPlanLoad (c : Cmd) (fileLen : Word) (buffer : Bytes) (s : State) : Out := commit s (planLoad c fileLen buffer s)

def planTranslationDone (slot : Fin 4) (s : State) : State :=
  match (Tab.get {} slot.val s.job.slots).loading with
  | none => s
  | some l =>
    let p := l.resident.plan
    -- another load may have become resident meanwhile (R153, R164)
    let status := if !s.sameLevel p slot.val then 0x0204 else if !s.codeFits p l.resident.role slot.val then 0x0302 else 0
    let gone := s.onJob fun j => { j with slots := Tab.modify {} slot.val (fun v => { v with loading := none }) j.slots }
    if l.output.isEmpty then if status = 0 then s.install slot.val l.resident else gone
    else
      if status = 0 then (s.install slot.val l.resident).complete l.mailbox l.tag 0 0 l.buffer l.output
      else gone.complete l.mailbox l.tag status ({} : PlanPlace).detail

/-- PLAN_TRANSLATION_DONE (R161): the plan is resident and its command completes with the report. -/
def execPlanTranslationDone (slot : Fin 4) (s : State) : Out := commit s (planTranslationDone slot s)

/-- PLAN_EVICT's work. -/
def State.hostEvict (c : Cmd) (s : State) : State :=
  let slot := c.mboxByte.toNat
  if 3 < slot then s.finish 1 c 0x011C
  else if s.job.bind.isNone then s.finish 1 c 0x0207
  else if s.slotBusy slot then s.finish 1 c 0x0203
  else
    if (s.resident slot).isNone then s.finish 1 c 0x0207 else (s.vacate slot).finish 1 c 0

def planEvict (c : Cmd) (s : State) : State := s.command 1 0x0104 c false (State.hostEvict c)

/-- PLAN_EVICT (R161, R164, R403). -/
def execPlanEvict (c : Cmd) (s : State) : Out := commit s (planEvict c s)

/-! ## The dispatch check (R157, R244, R271) -/

/-- The chart gives the module the shards and the layout that the plan was compiled for (R157, R267, R401). -/
def Chart.suits (x : Chart) (p : Plan) : Bool :=
  x.vLog2 = p.vLog2 && x.spmLog2 = p.spmLog2 && !(x.rank && p.level = 3) && (x.rank || p.roles = 1 || x.stageAxis = p.roleAxis)

/-- Both modules of a relative PUT's exchange run this module's role (R157). -/
def State.peersAgree (s : State) (r : Resident) (g : Gazetteer) (m : MacroOp) : Bool :=
  let n : Int := (max 1 g.jobSize : Nat)
  let k := signed 17 (tgtRank m.op2)
  [(g.selfRank : Int) + k, (g.selfRank : Int) - k].all fun t =>
    (g.coord (t % n).toNat).any fun c => s.roleOf r.plan c = some r.role

/-- A network CRED's circuit is the ladder's, and its partner sits where R271 puts it. -/
def State.credPlaced (s : State) (x : Chart) (g : Gazetteer) (p : Plan) (m : MacroOp) : Bool :=
  let l := opExt m.op1
  match s.place, p.circuitOf m with
  | some own, some c =>
    match own.partners[l - x.spmLog2]? with
    | none => false
    | some (b, hops) =>
      decide (x.spmLog2 ≤ l) && c.bearing / 2 = b / 2 && c.hops = hops &&
        ((g.rings.walk b hops g.selfCoord).bind s.placeOf).any fun q =>
          q.v0 = Nat.xor own.v0 (2 ^ l) && q.member = own.member && q.stage = own.stage
  | _, _ => false

/-- The macro-ops of this module's role. -/
def Resident.ops (r : Resident) : List RawOp := (r.plan.uses.filter fun u => u.role = r.role).map fun u => u.op

/-- The module `k` hops back along the circuit's bearing sources it, with a consumer in the job. -/
def State.carriesSlot (s : State) (p : Plan) (x : Circuit) (k : Nat) : Bool :=
  match s.topo.gaz with
  | none => false
  | some g =>
    ((g.rings.walk (opposite x.bearing) k g.selfCoord).any fun c =>
      (s.placeOf c).isSome && (s.roleOf p c).any (fun role => ((p.code[role]?).bind fun y => y.cores.getD x.srcCore none).isSome) &&
        ((g.rings.walk x.bearing x.hops c).bind s.placeOf).isSome)

/-- The ports of every circuit that passes through this module are bonded, with or without a slot, and its own circuits reach a consumer
(R157). Of a circuit whose direction its CRED gives, the slots tell it. The ports of other modules on the path are theirs to check: their own
dispatch checks refuse there, and a legend does not tell which of a neighbour's ports has which bearing (log entry 147). -/
def State.pathsBonded (s : State) (r : Resident) : Bool :=
  (r.plan.variants.all fun v => (List.range v.frames).all fun f => (List.range 12).all fun b =>
    let out := s.spansOut r.plan v f b
    let into := s.spansIn r.plan v f b
    (out.isEmpty || (s.bondedPort b).isSome) && (into.isEmpty || (s.bondedPort (opposite b)).isSome) &&
      out.all fun x => x.hop ≠ 1 || (s.topo.gaz.bind fun g => (g.rings.walk b x.circuit.hops g.selfCoord).bind s.placeOf).isSome) &&
  (r.plan.circuits.all fun x => x.mode = 2 || (List.range (x.hops + 1)).all fun k =>
    !s.carriesSlot r.plan x k ||
      ((k = x.hops || (s.bondedPort x.bearing).isSome) && (k = 0 || (s.bondedPort (opposite x.bearing)).isSome)))

/-- The checks that a dispatch passes when it is received and again at every retry (R157). -/
def State.dispatchCheck (s : State) (r : Resident) : Chk Unit :=
  let p := r.plan
  match s.topo.gaz.filter fun g => g.jobTag = s.jobTag with
  | none => refuse 0x020A
  | some g =>
    match s.topo.chart with
    | none => refuse 0x0206
    | some x => do
      need (s.place.isSome && x.suits p) 0x0206
      need (s.roleOf p g.selfCoord = some r.role) 0x0206
      checkAll (fun o => need (o.opcode ≠ ocPut || o.op.postN = 0 || !tgtRel o.op.op2 || s.peersAgree r g o.op) 0x0206) r.ops
      checkAll (fun o => need (o.opcode ≠ ocCred || opLocal o.op || s.credPlaced x g p o.op) 0x0206 { frame := opExt o.op.op1 }) r.ops
      need (s.coresReady p r.role) 0x0301
      needNone (s.widthFault p)
      need (s.pathsBonded r) 0x0603
      need (s.framesFit p) 0x010E
      need (p.variants.all (s.slotsClear p)) 0x0113

/-! ## The page latch (R168, R184) -/

/-- 2^e as an FP32 word. -/
def scaleWord (e : Int) : Word := BitVec.ofNat 32 ((e + 127).toNat * 2 ^ 23)

def State.pageFault (s : State) (step : Word) : Option Nat :=
  let b := s.pageBytes
  let limit := fun (i : Nat) => signed 8 (field b (4 + i) 1)
  let inRange := fun (e : Int) => decide (-100 ≤ e) && decide (e ≤ 100)
  if (crc32 (b.take 0xDC)).toNat ≠ field b 0xDC 4 then some 0x0402
  else if field b 0 4 ≠ step.toNat then some 0x0208
  else if !(inRange (limit 0) && inRange (limit 1) && inRange (limit 2) && decide (limit 1 ≤ limit 2)) then some 0x0111
  else none

/-- Latch the page: the loss scale, then the copy into every hub's step block, then LATCHED_STEP. -/
def State.latchPage (step : Word) (s : State) : State :=
  let b := s.pageBytes
  let limit := fun (i : Nat) => signed 8 (field b (4 + i) 1)
  let s := if natBit (field b 7 1) 0 then
      s.onRegs fun r => { r with scaleLog2 := max (limit 1) (min (limit 0) (limit 2)), goodSteps := 0 }
    else s
  let s := s.onRegs fun r => { r with lossScale := scaleWord r.scaleLog2, invLossScale := scaleWord (-r.scaleLog2) }
  let page := s.pageBytes
  (s.each (List.range 8) fun s h => s.putBytes (hubcKey h stepBlock) page).onRegs fun r => { r with latchedStep := step }

/-! ## PLAN_DISPATCH -/

/-- The entry lines of the strands with work in the plan's first frame are preloaded (R82): of variant 0, since the contour is not cut yet when the
dispatch is accepted (log entry 149). -/
def State.preload (r : Resident) (s : State) : State :=
  match r.plan.variantAt 0 with
  | none => s
  | some v => s.each (List.range 120) fun s n =>
      match r.blockOf n with
      | none => s
      | some b =>
        s.each (v.cutsAt r.role b 0) fun s e =>
          s.onCore (s.coreFor r.plan.twin n) (Core.request (Tab.get 0 (64 * n + e.1) r.lines) true)

/-- Frame `f` lies in the migration window of a reshape (R302). -/
def State.inMigration (s : State) (f : Nat) : Bool :=
  match s.topo.reshape with
  | some r => r.opened.any fun o => decide (o ≤ f) && decide (f < o + r.frames)
  | none => false

/-- Accept a dispatch whose checks passed. -/
def State.accept (c : Cmd) (r : Resident) (f : Nat) (step : Word) (phaseSeq : BitVec 16) (s : State) : State :=
  let d : Dispatch := { slot := c.mboxByte.toNat, first := f, step, phaseSeq, tag := c.tag }
  let s := s.onJob fun j => { j with dispatches := j.dispatches ++ [d], dispatched := true }
  (s.preload r).cutsDue

def State.hostDispatch (frame : BitVec 64) (step : Word) (phaseSeq : BitVec 16) (c : Cmd) (s : State) : State :=
  let slot := c.mboxByte.toNat
  let f := frame.toNat
  let no := fun (status : Nat) (s : State) => s.finish 1 c status ({} : PlanPlace).detail
  let busy := (Tab.get {} slot s.job.slots).loading.isSome
  match s.job.bind with
  | none => no 0x0207 s
  | some b =>
    if 3 < slot || ((s.resident slot).isNone && !busy) then no 0x0207 s
    else if s.job.suspended then no 0x020C s
    else if s.dev.state ≠ .running || s.mer.lock = 0 || s.mer.lock = 1 then no 0x0201 s
    else if s.inMigration f then no 0x020E s
    else if decide (b.tick ((f : Int) - b.horizon) < s.clock.meridian) then no 0x0205 (s.lateOverrun step f)
    else if s.slotBusy slot then no 0x0203 s
    else
      match s.resident slot with
      | none => no 0x0207 s
      | some r =>
        match s.dispatchCheck r with
        | .error e => s.finish 1 c e.status e.detail
        | .ok () =>
          if s.job.dispatches.any fun d => d.step = step && !d.done then s.accept c r f step phaseSeq
          else
            match s.pageFault step with
            | some status => no status s
            | none => (s.latchPage step).accept c r f step phaseSeq

def planDispatch (c : Cmd) (frame : BitVec 64) (step : Word) (phaseSeq : BitVec 16) (s : State) : State :=
  s.command 1 0x0105 c false (State.hostDispatch frame step phaseSeq c)

/-- PLAN_DISPATCH (R44, R157, R168). -/
def execPlanDispatch (c : Cmd) (frame : BitVec 64) (step : Word) (phaseSeq : BitVec 16) (s : State) : Out :=
  commit s (planDispatch c frame step phaseSeq s)

/-! ## SCOREBOARD_RUN (R70 to R72, R409) -/

/-- A scoreboard plan is read and checked: checks 1 to 4, 9 and 10, with R71. A plan without the SCOREBOARD flag is refused with 0x0102 (log entry
150). -/
def State.loadScore (s : State) (file : Bytes) : Chk Resident := do
  let p ← parsePlan file
  need p.scoreboard 0x0102
  s.check2 p
  check3 p
  s.check4 p
  s.check9 p 0 4
  s.check10 p
  return { plan := p, role := 0, bytes := ((List.range 120).map (p.nativeBytes 0)).sum, headroom := [], wc := []
           lines := p.lineTable 0 s.freeHome, code := s.codeTable p 0, energies := [], measured := [] }

/-- Switch a core with a block of the plan to scoreboard mode and give its strands their work (R72). -/
def State.enterScore (r : Resident) (s : State) (n : Nat) : State :=
  match r.blockOf n with
  | none => s
  | some b =>
    let strands := ((List.range 64).filter fun t => !(r.plan.stream r.role b t).isEmpty).map fun t =>
      (t, ({ st := .ready, work := true } : Strand))
    let start := fun (c : Core) =>
      { c with saved := some (c.queues, c.strands), scoreboard := true, queues := [], strands, stopped := false }
    let p := s.coreFor r.plan.twin n
    let s := s.onCore p start
    if r.plan.twin then s.onCore (p + 1) start else s

/-- A core runs no test and is available for the run. -/
def State.scoreReady (s : State) (r : Resident) : Bool :=
  s.coresReady r.plan r.role && (List.range 120).all fun n => (r.blockOf n).isNone ||
    (s.core (s.coreFor r.plan.twin n)).free && (!r.plan.twin || (s.core (s.coreFor true n + 1)).free)

def State.hostScore (fileLen : Word) (buffer : Bytes) (c : Cmd) (s : State) : State :=
  if s.dev.state ≠ .ready || s.scoring then s.finish 6 c 0x0201
  else if c.length.toNat < fileLen.toNat then s.finish 6 c 0x0303 ({} : PlanPlace).detail
  else
    match s.loadScore (buffer.take fileLen.toNat) with
    | .error e => s.finish 6 c e.status e.detail
    | .ok r =>
      if !s.scoreReady r then s.finish 6 c 0x0301 ({} : PlanPlace).detail
      else
        let s := (s.onJob fun j => { j with score := some c.tag }).install 4 r
        let s := s.each (List.range 120) (State.enterScore r)
        if s.cores.all fun e => !e.2.scoreboard || e.2.strands.all fun y => !y.2.work then s.endScore 0 else s

def scoreboardRun (c : Cmd) (fileLen : Word) (buffer : Bytes) (s : State) : State :=
  s.command 6 0x0603 c true (State.hostScore fileLen buffer c)

/-- SCOREBOARD_RUN (R70 to R72, R409). -/
def execScoreboardRun (c : Cmd) (fileLen : Word) (buffer : Bytes) (s : State) : Out := commit s (scoreboardRun c fileLen buffer s)

end Sys2Proof.Machine
end

