-- ==== Sys2Proof/Machine/Migrate.lean ====
section
/-! DEFINITION. Migrations (R303, R304): which shards change hosts, what this module sends, and the frames a migration needs. -/
namespace Sys2Proof.Machine

/-! ## Hosts -/

/-- The shard of a local shard slot at a place. -/
def Chart.shardAt (c : Chart) (p : ChartPlace) (slot : Nat) : Nat := p.v0 + c.slots.getD slot slot

/-- The local shard slot of shard `v` at a place. -/
def Chart.slotOf (c : Chart) (p : ChartPlace) (v : Nat) : Option Nat :=
  (List.range (2 ^ c.spmLog2)).find? fun i => c.shardAt p i = v

/-- The modules of a job with their places. -/
def Chart.hosts (c : Chart) (g : Gazetteer) : List (BitVec 48 × ChartPlace) :=
  (g.entries.filterMap id).filterMap fun x => (c.place g x).map fun p => (x, p)

/-- The coordinate of the buddy of the module at `x` (R299). -/
def Chart.buddyOf (c : Chart) (g : Gazetteer) (x : BitVec 48) : Option (BitVec 48) :=
  ((c.place g x).bind fun p => p.partners.head?).bind fun e => g.rings.walk e.1 e.2 x

/-- A shard that changes its host: from where, to where, the shard. -/
structure Move where
  src : BitVec 48
  dst : BitVec 48
  shard : Nat
  deriving DecidableEq, Repr

/-- The transfer list (R303): a shard goes from its old host to the new host of the same member and stage. -/
def movesOf (old : Chart) (gO : Gazetteer) (new : Chart) (gN : Gazetteer) : List Move :=
  (new.hosts gN).flatMap fun n =>
    (old.hosts gO).flatMap fun o =>
      if o.1 = n.1 || o.2.member ≠ n.2.member || o.2.stage ≠ n.2.stage then []
      else
        ((List.range (2 ^ new.spmLog2)).map (new.shardAt n.2)).filterMap fun v =>
          if (old.slotOf o.2 v).isSome then some { src := o.1, dst := n.1, shard := v } else none

/-- The moves of a reshape. -/
def State.moves (s : State) (r : Reshape) : List Move :=
  match s.topo.chart, s.topo.gaz with
  | some c, some g => movesOf c g r.chart r.gaz
  | _, _ => []

/-- What this module sends: the granules of every shard that leaves it. -/
def State.outgoing (s : State) (r : Reshape) : List (BitVec 48 × Nat) :=
  match s.topo.chart, s.place with
  | some c, some p =>
    (s.moves r).flatMap fun m =>
      if m.src ≠ s.ownCoord then []
      else
        match c.slotOf p m.shard with
        | some i => (s.shardGranules i).map fun k => (m.dst, k)
        | none => []
  | _, _ => []

/-! ## Frames (R304) -/

/-- 1 MiB slots that a link of `w` units carries in a frame. -/
def Bind.slotsPerFrame (b : Bind) (w : Nat) : Nat :=
  (b.period - b.guardNs) * 100 / (64 * (ceilDiv (2 ^ 20 + 32) (64 * max 1 w) + 64))

/-- Bytes that the port of a bearing carries in a frame: this module's own bonded links stand for every module's. -/
def State.portBytes (s : State) (b : Bind) (bearing : Nat) : Nat :=
  match s.linksAt bearing with
  | [] => b.slotsPerFrame 1 * 2 ^ 20
  | l => (l.map fun e => b.slotsPerFrame e.2).sum * 2 ^ 20

/-- The hops of a route with the module that sends on each. -/
def Rings.legs (r : Rings) (src dst : BitVec 48) : List (BitVec 48 × Nat) :=
  let path := r.route dst 1536 src
  (src :: path.map fun e => e.2).zip (path.map fun e => e.1)

/-- What goes from one module to another in a migration, in bytes. -/
structure Haul where
  src : BitVec 48
  dst : BitVec 48
  bytes : Nat
  deriving DecidableEq, Repr

/-- The working copies that change hosts (R303): a module of the new job that did not hold its member part's receives it from an old module of the
same member and stage that sends it shard state, the first of several; the bytes of a working copy are a free value (log entry 91). -/
def copiesOf (old : Chart) (gO : Gazetteer) (new : Chart) (gN : Gazetteer) : List Haul :=
  (new.hosts gN).filterMap fun n =>
    let own := fun o : BitVec 48 × ChartPlace => o.2.member = n.2.member && o.2.stage = n.2.stage
    if (old.hosts gO).any fun o => o.1 = n.1 && own o then none
    else
      ((movesOf old gO new gN).find? fun m => m.dst = n.1).map fun m =>
        { src := m.src, dst := n.1, bytes := Config.workingCopy new.jobTag n.2.member n.2.stage }

/-- The frames that a list of hauls takes (R304): those of the busiest link, and one for each hop of the longest route. -/
def State.framesFor (s : State) (b : Bind) (r : Rings) (l : List Haul) : Nat :=
  let legs := l.map fun m => (r.legs m.src m.dst, m.bytes)
  let all := legs.flatMap fun e => e.1.map fun x => (x, e.2)
  let busiest := ((all.map fun e => e.1).eraseDups.map fun e =>
    ceilDiv ((all.filter fun x => x.1 = e).map fun x => x.2).sum (max 1 (s.portBytes b e.2))).foldl max 0
  busiest + (legs.map fun e => e.1.length).foldl max 0

/-- The frames that a reshape's migration needs: its working copies, and its shards but those whose new host is their old host's buddy, which are
there already when the buddy copies of the last commit are acknowledged. -/
def State.framesNeeded (s : State) (r : Reshape) : Nat :=
  match s.job.bind, s.topo.chart, s.topo.gaz with
  | some b, some c, some g =>
    let bytes := ((s.job.tensors.filter fun t => t.versioned).map fun t => t.nslots * t.sliceBytes).sum
    let shards := (s.moves r).filter fun m => !(s.released && c.buddyOf g m.src = some m.dst)
    s.framesFor b r.gaz.rings ((shards.map fun m => { src := m.src, dst := m.dst, bytes }) ++ copiesOf c g r.chart r.gaz)
  | _, _, _ => 0

/-! ## The migration window -/

/-- Where a received granule waits for the window's end. -/
def stagedKey (k : Nat) : Nat := 2 ^ 102 + k * 4096

/-- The window opens at frame `f` (R302). -/
def State.openMigration (r : Reshape) (f : Nat) (s : State) : State :=
  let out := s.outgoing r
  (s.onTopo fun t => { t with reshape := some { r with opened := some f }, migOut := out, migIn := [] }).note .reshapeStart srcModule

end Sys2Proof.Machine
end

