-- ==== Sys2Proof/Machine/Seal.lean ====
section
/-! DEFINITION. The step seal: the vote and the decision (R317 to R320), what the decision does at the tick that ends the window (R51,
R183, R184, R316), confirmation and SEAL_MISSED (R321), rollback (R326, R327), buddy copies (R322 to R325), RELEASE (R323) and the
granules asked of a buddy (R328). -/
namespace Sys2Proof.Machine

/-! ## The vote (R317, R319) -/

/-- The vote formed at the first tick of the window. -/
def State.formVote (a : Attempt) (unitsSilent : Bool) (s : State) : State :=
  let cause := causeIf s.overflowed causeOverflow ||| causeIf a.abortFo.isSome causeAbort |||
    causeIf a.integrity causeIntegrity ||| causeIf (!a.lost.isEmpty) causePeer ||| causeIf (s.childBearings.any s.childLost) causeMissing
  -- with a child lost the vote waits for none (R319)
  let waiting := if s.childBearings.any s.childLost then [] else s.childPorts
  let v : VoteState :=
    { abort := cause ≠ 0, cause, count := 1, integ := s.log.integ, granules := s.sealSt.granules.length, step := a.step
      epoch := s.job.attempts, waiting, unitsOpen := unitsSilent, sent := false, at_ := s.clock.meridian }
  (s.onSealSt fun w => { w with vote := some v, decision := none }).tryVote

def VoteState.combine (m : SealMsg) (q : Nat) (v : VoteState) : VoteState :=
  { v with
    abort := v.abort || m.verdict, cause := v.cause ||| m.cause, count := v.count + m.count.toNat, integ := satAdd v.integ m.integ.toNat
    granules := min (v.granules + m.granules.toNat) (2 ^ 64 - 1), waiting := v.waiting.filter fun p => p ≠ q }

def vote (link : Fin 24) (m : SealMsg) (s : State) : State :=
  match s.sealSt.vote, s.portOfBonded link.val with
  | some v, some q =>
    if s.ours m v.epoch && v.waiting.contains q then
      (s.onSealSt fun w => { w with vote := some (v.combine m q) }).tryVote
    else s
  | _, _ => s

/-- VOTE (R318, R319): combined, and sent up or decided when all are in. -/
def execVote (link : Fin 24) (m : SealMsg) (s : State) : Out := commit s (vote link m s)

def unitReportTimeout (s : State) : State :=
  match s.sealSt.vote with
  | some v =>
    if v.unitsOpen then
      let s := s.meridianTo (v.at_ + 1000)
      let v := { v with unitsOpen := false, abort := true, cause := v.cause ||| causeIntegrity }
      (s.onSealSt fun w => { w with vote := some v }).tryVote
    else s
  | none => s

/-- UNIT_REPORT_TIMEOUT (R317). -/
def execUnitReportTimeout (s : State) : Out := commit s (unitReportTimeout s)

/-- A module that belongs only to a reshape's new job opens its window at the tick after the decision that triggers it (R302, log
entry 52). -/
def State.joinReshape (m : SealMsg) (s : State) : State :=
  match s.topo.reshape with
  | some r =>
    if s.topo.chart.isNone && r.opened.isNone && !m.verdict && s.job.bind.isSome && m.jobTag = s.jobTag &&
        decide (r.afterStep.toNat ≤ m.step.toNat) then
      s.openMigration r (s.job.now + 1)
    else s
  | none => s

def decision (m : SealMsg) (s : State) : State :=
  let s := s.joinReshape m
  match s.sealSt.vote with
  | some v =>
    if s.ours m v.epoch && s.sealSt.decision.isNone && s.windowOpenAt then
      s.onSealSt fun w =>
        { w with decision := some (m.verdict, m.cause), sealNs := BitVec.ofNat 32 (s.clock.meridian - v.at_) }
    else s
  | none => s

/-- DECISION (R320): held for the tick that ends the window. -/
def execDecision (m : SealMsg) (s : State) : Out := commit s (decision m s)

/-! ## Retries (R51) -/

/-- The earliest dispatch whose step is not decided. -/
def Job.nextLive (j : Job) : Option Dispatch :=
  (j.dispatches.filter fun d => !d.done).foldl
    (fun (a : Option Dispatch) d =>
      match a with
      | none => some d
      | some e => if d.first < e.first then some d else a) none

/-- A dispatch moved by `delta` frames, without the empty frames of the earlier attempt, and cut anew; one of the step, or of an attempt that was
in progress, no lower than one contour above its last (R46, R47, R51). -/
def Dispatch.again (delta : Int) (step : Word) (contour : Nat) (bump : Bool) (d : Dispatch) : Dispatch :=
  if d.done then d
  else
    { d with
      first := ((d.first : Int) - d.shift + delta).toNat, shift := 0, begun := false, contour := none, voted := 0
      floor := if bump && (d.step = step || d.begun) then min 3 (d.contour.getD contour + 1) else d.floor }

/-- The first dispatch of a step that R157 refuses; a plan of an inset still in translation is not judged yet (R308). -/
def State.refusedDispatch (s : State) (step : Word) : Option (Dispatch × Refused) :=
  (s.job.dispatches.filter fun d => d.step = step && !d.done).findSome? fun d =>
    match s.planOf d with
    | none => if d.was.isNone && (Tab.get {} d.slot s.job.slots).loading.isSome then none else some (d, ⟨0x0207, ({} : PlanPlace).detail⟩)
    | some r =>
      match s.dispatchCheck r with
      | .error e => some (d, e)
      | .ok () => none

/-- The contour vote of a step tried again: the FLOODs heard for its phases join the module's own, and a neighbour's is compared again only when
it is heard again (R46, R51). -/
def Job.joinFloods (tag : BitVec 16) (step : Word) (j : Job) : Job :=
  let seqs := (j.dispatches.filter fun d => (d.step = step || d.begun) && !d.done).map fun d => d.phaseSeq.toNat
  let heard := fun (seq : Nat) => (j.neighbours.filter fun e => e.2.jobTag == tag).map fun e => Tab.get 0 seq e.2.floods - 1
  { j with
    floods := seqs.foldl (fun t q => Tab.modify 0 q (fun v => (heard q).foldl max v) t) j.floods
    neighbours := j.neighbours.map fun e => (e.1, { e.2 with floods := seqs.foldl (fun t q => Tab.set 0 q 0 t) e.2.floods }) }

/-- Restart the earliest step that is not decided at frame `f` (R51). -/
def State.restart (f contour : Nat) (bump : Bool) (s : State) : State :=
  match s.job.nextLive with
  | none => s
  | some d =>
    let delta : Int := (f : Int) - ((d.first : Int) - d.shift)
    let s := s.onJob (Job.joinFloods s.jobTag d.step)
    let s := s.onJob fun j => { j with dispatches := j.dispatches.map (Dispatch.again delta d.step contour bump) }
    match s.refusedDispatch d.step with
    | some (bad, e) => s.suspend (fun x => x == bad) e.status e.detail
    | none => s.cutsDue

/-! ## The decision (R183, R184, R316) -/

/-- A word of the latched page. -/
def State.stepWord (s : State) (off n : Nat) : Nat := leNat (s.bytesAt (hubcKey 0 stepBlock + off) n)

/-- LS_AUTO of the latched page. -/
def State.scaleAuto (s : State) : Bool := natBit (s.stepWord 7 1) 1

/-- GOOD_STEPS and the loss scale after a commit. -/
def State.growScale (s : State) : State :=
  let n := s.stepWord 0x30 4
  s.onRegs fun r =>
    let r := { r with goodSteps := satInc r.goodSteps, lastDecision := 1 }
    if s.scaleAuto && 0 < n && n ≤ r.goodSteps.toNat then
      { r with goodSteps := 0, scaleLog2 := min (r.scaleLog2 + 1) (signed 8 (s.stepWord 6 1)) }
    else r

/-- The loss scale after a skip. -/
def State.halveScale (s : State) : State :=
  let low := signed 8 (s.stepWord 5 1)
  let s' := s.onRegs fun r => { r with skips := satInc r.skips, lastDecision := 2, goodSteps := 0 }
  if s.scaleAuto then
    let t := s'.onRegs fun r => { r with scaleLog2 := max (r.scaleLog2 - 1) low }
    if s.regs.scaleLog2 ≤ low then t.note .lossScaleFloor srcModule else t
  else s'

/-- Body hash, level and profile of a step's plans in phase sequence order (R427). -/
def State.stepPlans (s : State) (step : Word) : List (Bytes × Nat × Nat) :=
  ((s.job.dispatches.filter fun d => d.step = step).mergeSort fun a b => decide (a.phaseSeq.toNat ≤ b.phaseSeq.toNat)).filterMap
    fun d => d.was.or ((s.resident d.slot).map fun r => (r.plan.bodyHash, r.plan.level, r.plan.profile))

/-- What a commit leaves for its cartouche and its rollback. -/
def State.commitRecord (s : State) (step : Word) (epoch f : Nat) (skipped : Bool) : Commit :=
  let plans := s.stepPlans step
  let r := s.regs
  { step, epoch, frame := f, seed := BitVec.ofNat 64 (s.stepWord 8 8), programs := plans.map fun p => p.1
    level := (plans.head?.map fun p => p.2.1).getD 0, profile := (plans.head?.map fun p => p.2.2).getD 0
    fields := (r.lossScale, r.invLossScale, r.goodSteps, r.skips), latched := r.latchedStep, log2 := r.scaleLog2
    tags := (s.job.dispatches.filter fun d => d.step = step).map fun d => d.tag, skipped, reshaped := s.topo.switchStep = some step }

/-- The step is decided: its dispatches wait for the confirmation tick (R321). -/
def State.awaitConfirm (k : Commit) (s : State) : State :=
  let s := s.onSealSt fun v => { v with confirming := v.confirming ++ [(k.frame + s.horizon + 1, k)] }
  s.onJob fun j => { j with dispatches := j.dispatches.map fun d => if d.step = k.step then { d with done := true } else d }

/-- The alert floor of R336 ends with the step, and so does one that waits for its tick. -/
def State.endUnmet (s : State) : State :=
  let s := s.onPower fun p => { p with unmetDue := false }
  if s.power.capUnmet then (s.onPower fun p => { p with capUnmet := false }).alertEnds .capUnmet else s

/-- A union without repeats. -/
def joinKeys (a b : List Nat) : List Nat := a ++ b.filter fun k => !a.contains k

/-- COMMIT: C ← A in every hub, and the sweep starts (R316). -/
def State.applyCommit (a : Attempt) (epoch f : Nat) (s : State) : State :=
  let late := !s.released
  let s := s.each (List.range 8) fun s h => s.onHub h fun v => { v with prevCommit := v.commit, commit := epoch, sweeping := true }
  let s := s.growScale
  let k := s.commitRecord a.step epoch f false
  let s := s.onSealSt fun v =>
    { v with
      commitsCount := satInc v.commitsCount, commitStep := a.step, flipped := if late then joinKeys v.granules v.flipped else v.granules
      granules := [], commits := (k :: v.commits).take 3 }
  let s := (s.onInteg fun v => { v with commits := (s.clock.uptime, a.step) :: v.commits }).onTopo fun t =>
    { t with switchStep := if k.reshaped then none else t.switchStep }
  let s := (s.awaitConfirm k).endUnmet
  match s.topo.reshape with
  | some r =>
    if r.opened.isNone && decide (r.afterStep.toNat ≤ a.step.toNat) then s.openMigration r f else s
  | none => s

/-- An overflow skip (R183). -/
def State.applySkip (a : Attempt) (epoch f : Nat) (s : State) : State :=
  let s := s.halveScale.note .overflowSkip srcModule
  ((s.onSealSt fun v => { v with abortsCount := satInc v.abortsCount, granules := [] }).awaitConfirm
    (s.commitRecord a.step epoch f true)).endUnmet

/-- Broadcast a reshape proposal (R307). -/
def State.sendProposal (s : State) : State :=
  (s.emit (.proposal s.jobTag s.ownCoord)).broadcast s.jobTag s.attemptTag (coordBytes kindProposal s.ownCoord s.job.now)

/-- The reshape window opens at W0 (R307); the attempt does not count against RETRIES (R305). -/
def State.openReshape (step : Word) (f : Nat) (s : State) : State :=
  let s := s.onJob fun j => { j with tries := j.tries.map fun e => if e.1 = step then (step, e.2 - 1) else e }
  (s.onTopo fun t => { t with window := some f, proposals := [] }).sendProposal

/-- The step is tried again from frame `f` on, or its tries are used up (R51). -/
def State.retryStep (step : Word) (f contour : Nat) (s : State) : State :=
  let retries := match s.job.bind with
    | some b => b.retries
    | none => 0
  if retries < s.job.triesAt step then ((s.note .stepRetriesExhausted srcModule).suspend (fun x => x.step == step) 0x0702 0).endUnmet
  else s.restart f contour true

/-- An ABORT that is no skip: what becomes of the step (R51, R307, R309, R373). -/
def State.applyAbort (a : Attempt) (missing : Bool) (cause : BitVec 16) (f : Nat) (s : State) : State :=
  let s := (s.onRegs fun r => { r with lastDecision := 3 }).onSealSt fun v =>
    { v with abortsCount := satInc v.abortsCount, granules := [] }
  let s := if missing then s else s.note .sealAbort srcModule cause.toNat
  if s.job.hangEnd then s.endBinding.hangLeave
  else if s.job.draining.isSome then (s.endDispatches (fun d => d.step = a.step && !d.done) 0x0703 0).endUnmet
  else if !a.lost.isEmpty then s.openReshape a.step f
  else if s.topo.switched && (missing || cause &&& causeMissing ≠ 0) then s.suspendLost.endUnmet
  else
    match s.job.nextLive with
    | none => s
    | some d => s.retryStep d.step f a.contour

/-- Apply the decision held at the tick of frame `f`, which ends the window: none held is ABORT with SEAL_MISSED (R48, R183, R320).
The attempt count advances (R247). -/
def State.applyDecision (a : Attempt) (f : Nat) (s : State) : State :=
  let epoch := s.job.attempts
  let held := s.sealSt.decision
  let (abort, cause) := held.getD (true, 0)
  let s := s.onSealSt fun v =>
    { v with vote := none, decision := none, lastCause := if abort && held.isSome then cause else v.lastCause }
  let s := if held.isNone then
      (s.note .sealMissed srcModule).sealAll kindMissed (s.sealMsg a.step epoch)
    else s
  let s := s.onJob fun j => { j with attempt := none, running := none, attempts := epoch + 1 }
  let next := fun (s : State) => s.each (List.range 8) fun s h => s.onHub h fun v => { v with attempt := epoch + 1 }
  let s := s.onCores fun t => t.map fun e => (e.1, { e.2 with overrides := [] })
  let s := match s.topo.nextGaz with
    | some g => s.onTopo fun t => { t with gaz := some g, nextGaz := none }
    | none => s
  if !abort then next (s.applyCommit a epoch f)
  else if held.isSome && cause = causeOverflow && a.abortFo.isNone then next (s.applySkip a epoch f)
  else (next s).applyAbort a held.isNone cause f

/-! ## Rollback (R326, R327) -/

/-- RO fields as a commit left them. -/
def Commit.restore (k : Option Commit) (r : HostRegs) : HostRegs :=
  match k with
  | some k =>
    { r with
      lossScale := k.fields.1, invLossScale := k.fields.2.1, goodSteps := k.fields.2.2.1, skips := k.fields.2.2.2
      latchedStep := k.latched, scaleLog2 := k.log2, lastDecision := 3 }
  | none => { r.unlatched with lastDecision := 3 }

/-- Roll the last commit back: the hubs' ROLLBACK and their sweep, the RO fields, the older buddy copy, and its dispatches if it was not
confirmed. -/
def State.rollback (s : State) : State :=
  let c := s.lastEpoch
  let known := s.sealSt.commits
  let rest := known.filter fun k => k.epoch ≠ c
  let s := s.each (List.range 8) fun s h => s.onHub h fun v => { v with rollback := true, sweeping := true }
  let s := s.onRegs (Commit.restore rest.head?)
  let fields := (s.pageBytes.drop 0xE0).take 24
  let s := s.each (List.range 8) fun s h => s.putBytes (hubcKey h stepBlock + 0xE0) fields
  let gone := fun (x : Option (Nat × List Nat)) => x.filter fun e => e.1 ≠ c
  let s := s.onSealSt fun v =>
    { v with
      rollbacks := satInc v.rollbacks, commits := rest, confirming := v.confirming.filter fun e => e.2.skipped || e.2.epoch ≠ c
      copyIn := gone v.copyIn, copyOut := gone v.copyOut, copyQueued := gone v.copyQueued, ownDone := false, doneWaiting := []
      buddyEpoch := if v.buddyEpoch = c then v.buddyPrev else v.buddyEpoch, flipped := [] }
  let undone := (known.filter fun k => k.epoch = c).map fun k => k.step
  let s := s.onJob fun j => { j with dispatches := j.dispatches.map fun d => if undone.contains d.step then { d with done := false } else d }
  s.note .sealRollback srcModule

/-- The commit that SEAL_MISSED names is the last and not confirmed yet (R321, R331). -/
def State.missedCommit (s : State) (m : SealMsg) : Option Commit :=
  match s.job.bind with
  | none => none
  | some b =>
    if s.ours m s.lastEpoch && !(s.hub 0).rollback then
      (s.sealSt.confirming.find? fun e =>
        !e.2.skipped && e.2.epoch = s.lastEpoch && decide ((s.clock.meridian : Int) < b.tick e.1)).map fun e => e.2
    else none

def sealMissed (m : SealMsg) (s : State) : State :=
  match s.missedCommit m with
  | none => s
  | some _ =>
    let s := s.rollback
    match s.job.attempt with
    | some a => if a.abortFo.isSome then s else (s.knowAbort s.job.now).sendAbort a.step s.job.now
    | none =>
      match s.job.nextLive with
      | none => s
      | some d => s.retryStep d.step (s.job.now + 1) s.job.contour

/-- SEAL_MISSED (R321). -/
def execSealMissed (m : SealMsg) (s : State) : Out := commit s (sealMissed m s)

/-! ## Buddy copies and RELEASE -/

/-- The directory keys of every versioned granule that this module owns. -/
def State.allGranules (s : State) : List Nat := (List.range s.shardSlots).flatMap s.shardGranules

/-- RELEASE: REL ← C in every hub, and the digests of C are complete (R323, R425). -/
def State.releaseCommit (s : State) : State :=
  let s := s.each (List.range 8) fun s h => s.onHub h fun v => { v with released := v.commit }
  let s := if s.cartoucheBound then
      s.each s.sealSt.flipped fun s k =>
        let d := sha256 (s.bytesAt (s.currentKey k) 4096)
        s.onSec fun v => { v with digests := Tab.set [] k d v.digests }
    else s
  (s.onTopo fun t => { t with fresh := false }).releaseWaiting

/-- BUDDY_DONE goes up, or the root releases, when this module's copy and every child's are done (R323). -/
def State.tryDone (s : State) : State :=
  let v := s.sealSt
  if !v.ownDone || !v.doneWaiting.isEmpty || v.doneSent then s
  else
    let n := v.doneCount + 1
    let m := { s.sealMsg v.commitStep s.lastEpoch with count := BitVec.ofNat 32 n }
    let s := s.onSealSt fun v => { v with doneSent := true }
    if s.isRoot then (if n = s.jobSize then (s.sealAll kindRelease m).releaseCommit else s) else s.sendUp kindDone m

/-- Start the buddy copy of commit `k`, behind a copy that still runs (R322, R331); with no buddy, release it (R323). -/
def State.startCopy (k : Commit) (s : State) : State :=
  if s.buddy.isNone then (if k.epoch = s.lastEpoch then s.releaseCommit else s)
  else
    let keys := if s.topo.fresh then s.allGranules else joinKeys s.sealSt.flipped s.sealSt.again
    s.onSealSt fun v =>
      let v := { v with again := [], doneCount := 0, doneWaiting := s.childPorts, ownDone := false, doneSent := false }
      match v.copyOut with
      | none => { v with copyOut := some (k.epoch, keys), copySent := 0 }
      | some _ =>
        { v with copyQueued := some (k.epoch, match v.copyQueued with
          | some q => joinKeys q.2 keys
          | none => keys) }

/-- The digests of the commit before the last move to the previous set (R428); a granule that the last commit is the first to flip gives
its digest there from its previous version (R425). -/
def State.keepDigests (s : State) : State :=
  let first := if s.cartoucheBound then s.sealSt.flipped.filter fun k => (Tab.get [] k s.sec.digests).isEmpty else []
  s.onSec fun v =>
    { v with prevDigests := first.foldl (fun t k => Tab.set [] k (sha256 (s.bytesAt (areaKey k (!(s.resolve k).1).toNat) 4096)) t) v.digests }

/-- A commit or a skip is confirmed (R321, R428). -/
def State.confirm (s : State) (k : Commit) : State :=
  let detail := (if k.skipped then 1 else 0) + if k.reshaped then 2 else 0
  let s := s.endDispatches (fun d => d.done && d.step = k.step) 0 detail
  let s := s.onJob fun j => { j with tries := j.tries.filter fun e => e.1 ≠ k.step }
  if k.skipped then s
  else
    ((s.onSealSt fun v => { v with confirmed := some k.epoch }).keepDigests).startCopy k

def confirmationTick (s : State) : State :=
  let due := fun (e : Nat × Commit) => decide ((e.1 : Int) ≤ s.job.frame)
  let now := (s.sealSt.confirming.filter due).map fun e => e.2
  (s.onSealSt fun v => { v with confirming := v.confirming.filter fun e => !due e }).each now State.confirm

/-- CONFIRMATION_TICK (R321): dispatches complete and the buddy copy starts. -/
def execConfirmationTick (s : State) : Out := commit s (confirmationTick s)

/-- The key of a granule's buddy areas. -/
def buddyKey (k : Nat) : Nat :=
  let (t, slot, v, _, g) := dirParts k
  dirKey t slot v 1 g

/-- The key of a granule's own areas. -/
def ownKey (k : Nat) : Nat :=
  let (t, slot, v, _, g) := dirParts k
  dirKey t slot v 0 g

/-- Make a received granule current in its buddy area (R322). -/
def State.takeBuddy (epoch : Nat) (s : State) (k : Nat) : State :=
  let (cur, _, _) := s.resolve k
  s.onDir (Tab.set {} k { cur := !cur, prv := true, frs := false, epoch := BitVec.ofNat 24 epoch })

/-- The copy that is coming in: that of the last commit before its first slot. -/
def State.copyExpected (s : State) : Nat := (s.sealSt.copyIn.map fun e => e.1).getD s.lastEpoch

/-- A slot of the incoming copy was discarded: BUDDY_RESEND once per copy (R325). -/
def State.buddyResend (link : Nat) (s : State) : State :=
  if s.sealSt.resendFor = some s.copyExpected then s
  else (s.onSealSt fun v => { v with resendFor := some s.copyExpected }).note .buddyResend (srcLink link)

/-- The port toward the buddy, and its first link. -/
def State.buddyPort (s : State) : Option Nat := s.buddy.bind fun e => s.bondedPort e.1
def State.buddyLink (s : State) : Nat :=
  match s.buddyPort with
  | some q => (s.bondedLinks q).headD 0
  | none => 0

def buddyCopyDone (epoch : Word) (crcOk : Bool) (s : State) : State :=
  match s.sealSt.copyIn with
  | none => s
  | some (c, keys) =>
    let e := epoch.toNat
    if e ≠ c || (e ≠ s.lastEpoch && e ≠ (s.hub 0).prevCommit) then s
    else if !crcOk || keys.length ≠ s.sealSt.copyInTotal then s.buddyResend s.buddyLink
    else
      let s := s.each keys (State.takeBuddy e)
      let s := s.onSealSt fun v => { v with copyIn := none, buddyPrev := v.buddyEpoch, buddyEpoch := e }
      match s.buddyPort, s.buddyCoord with
      | some q, some c => s.sealTo q c kindAck (s.sealMsg s.sealSt.commitStep e)
      | _, _ => s

/-- BUDDY_COPY_DONE (R322): the slot marked last has landed. A copy that lacks granules is not made current: its missing slots are sent again (R325). -/
def execBuddyCopyDone (epoch : Word) (crcOk : Bool) (s : State) : Out := commit s (buddyCopyDone epoch crcOk s)

def buddyAck (m : SealMsg) (s : State) : State :=
  match s.sealSt.copyOut with
  | none => s
  | some (e, _) =>
    if !s.ours m e then s
    else
      let s := s.onSealSt fun v =>
        { v with copyOut := v.copyQueued, copyQueued := none, copySent := 0, ownDone := v.ownDone || e = s.lastEpoch }
      s.tryDone

/-- BUDDY_ACK (R323). -/
def execBuddyAck (m : SealMsg) (s : State) : Out := commit s (buddyAck m s)

def buddyDone (link : Fin 24) (m : SealMsg) (s : State) : State :=
  match s.portOfBonded link.val with
  | some q =>
    if s.ours m s.lastEpoch && s.sealSt.doneWaiting.contains q then
      (s.onSealSt fun v =>
        { v with doneCount := v.doneCount + m.count.toNat, doneWaiting := v.doneWaiting.filter fun p => p ≠ q }).tryDone
    else s
  | none => s

/-- BUDDY_DONE (R323). -/
def execBuddyDone (link : Fin 24) (m : SealMsg) (s : State) : Out := commit s (buddyDone link m s)

def release (m : SealMsg) (s : State) : State :=
  if s.ours m s.lastEpoch && !s.released && !(s.hub 0).rollback then s.releaseCommit else s

/-- RELEASE (R323). -/
def execRelease (m : SealMsg) (s : State) : Out := commit s (release m s)

/-! ## Granules asked of the buddy (R328) -/

/-- Answer the partner on VC2 (R239, R328). -/
def State.answerGranule (granule : Nat) (data : Option Bytes) (s : State) : State :=
  let s := s.emit (.sheetReply granule data)
  match s.buddyCoord with
  | some c => s.control 2 s.jobTag s.attemptTag c (granuleBytes kindSheetReply granule 0 (data.getD []))
  | none => s

/-- Every poisoned block of a granule that is read is logged, and a committed sheet's is asked from the buddy (R197, R328). -/
def State.meetPoison (key : Nat) (s : State) : State :=
  s.each ((List.range 64).filter fun i => s.runPoisoned (key + 64 * i) 64) fun s i => s.readPoison (key / 64 + i)

def sheetRestoreRequest (granule : Nat) (held : Word) (s : State) : State :=
  let k := buddyKey granule
  let at_ := s.currentKey k
  if s.job.bind.isNone then s
  else if granule = k then s.onSealSt fun v => { v with again := joinKeys v.again [ownKey granule] }
  else if decide (held.toNat ≤ s.sealSt.buddyEpoch) && !s.runPoisoned at_ 4096 then
    s.answerGranule granule (some (s.bytesAt at_ 4096))
  else (s.meetPoison at_).answerGranule granule none

/-- SHEET_RESTORE_REQUEST (R328): a granule of the buddy area is returned; one of this module's own that lies poisoned in the buddy's area, which the
key of that area names, is sent again with the next copy (log entry 38). -/
def execSheetRestoreRequest (granule : Nat) (held : Word) (s : State) : Out := commit s (sheetRestoreRequest granule held s)

def sheetRestored (granule : Nat) (data : Option Bytes) (s : State) : State :=
  if !s.sealSt.asked.contains granule then s
  else
    let s := s.onSealSt fun v => { v with asked := v.asked.filter fun k => k ≠ granule }
    match data with
    | none => s.sheetLost granule
    | some d =>
      let (tensor, _, _, _, g) := dirParts granule
      let s := s.putBytes (s.currentKey granule) (slice d 0 4096)
      (s.onSealSt fun v => { v with restores := satInc v.restores }).note .sheetRestored (srcHub (s.dirHub granule)) (tensor + g * 2 ^ 16)

/-- SHEET_RESTORED (R328). -/
def execSheetRestored (granule : Nat) (data : Option Bytes) (s : State) : Out := commit s (sheetRestored granule data s)

end Sys2Proof.Machine
end

