-- ==== Sys2Proof/Machine/Mx.lean ====
section
/-! DEFINITION. The matrix arrays and the macro-ops MMA and MMAS: cells and their repair, units, streaming and accumulation (R85 to R93, R98, R99),
the check column (R94, R95), the MMAS output stage (R115). -/
namespace Sys2Proof.Machine

/-! ## FP32 pieces (R99) -/

/-- A finite value rounded to 16 significant bits, to nearest, ties to even, with an unbounded exponent. -/
def rne16 : Val → Val
  | .fin neg m e =>
    let l := bitLen m
    if l ≤ 16 then .fin neg m e else .fin neg (roundMag 0 0 m e (e + (l - 16 : Nat))) (e + (l - 16 : Nat))
  | v => v

/-- The two pieces of an FP32 value. -/
def fp32Pieces (v : Val) : Val × Val :=
  if v.isFin then (rne16 v, v.add (rne16 v).negate) else (v, .fin false 0 0)

/-- The piece of an element that a pass multiplies: pass 1 the upper pieces, pass 2 the lower piece of A with the upper of B, pass 3 the
upper piece of A with the lower of B. In passes 2 and 3 a non-finite element gives 0, so that its products are absent. -/
def passPiece (fp32 : Bool) (pass : Nat) (ofA : Bool) (v : Val) : Val :=
  if !fp32 then v
  else if pass = 1 then (fp32Pieces v).1
  else if (pass == 2) == ofA then (fp32Pieces v).2
  else if v.isFin then (fp32Pieces v).1 else .fin false 0 0

/-! ## Cells, repair and the weight load (R85, R88, R97, R98) -/

def rowSkip (record : BitVec 16) : Nat := record.toNat % 128
def colSkip (record : BitVec 16) : Nat := record.toNat / 256 % 64

/-- The physical place of logical row or column `i`, with `skip` bypassed. -/
def pastSkip (skip i : Nat) : Nat := if i < skip then i else i + 1

/-- Entry (r, c) of the weight registers. -/
def weightAt (w : List (List Val)) (r c : Nat) : Val := (w.getD r []).getD c (.fin false 0 0)

/-- The weight of logical cell (k, c); column 32 is the check column. -/
def cellWeight (record : BitVec 16) (w : List (List Val)) (k c : Nat) : Val := weightAt w (pastSkip (rowSkip record) k) (pastSkip (colSkip record) c)

/-- The registers after a load of the logical rows `rows`: a bypassed cell keeps what it held. -/
def loadCells (record : BitVec 16) (old rows : List (List Val)) : List (List Val) :=
  let logical := fun (skip p : Nat) => if p < skip then p else p - 1
  (List.range 65).map fun r => (List.range 34).map fun c =>
    if r = rowSkip record || c = colSkip record then weightAt old r c
    else weightAt rows (logical (rowSkip record) r) (logical (colSkip record) c)

/-- The residue mod 255 of a finite value (R94). -/
def Val.res : Val → Nat
  | .fin neg m e =>
    let r := m % 255 * 2 ^ (e % 8).toNat % 255
    if neg then (255 - r) % 255 else r
  | _ => 0

/-- A unit: one weight load and one stream (R92). -/
structure MxUnit where
  block : Nat
  chunk : Nat
  pass : Nat
  deriving DecidableEq, Repr

/-- The units of a 128-column block, in order. -/
def blockUnits (passes depth block : Nat) : List MxUnit :=
  (List.range (ceilDiv depth 64)).flatMap fun chunk => (List.range passes).map fun p => { block, chunk, pass := p + 1 }

/-- What a unit loads into the logical rows of array `a`: its 32 columns of the block, zero beyond K and N, and the check weight of the row. -/
def unitWeights (fp32 : Bool) (u : MxUnit) (b : List (List Val)) (a : Nat) : List (List Val) :=
  (List.range 64).map fun k =>
    let ws := (List.range 32).map fun c => passPiece fp32 u.pass false (weightAt b (64 * u.chunk + k) (128 * u.block + 32 * a + c))
    ws ++ [.fin false ((ws.map Val.res).sum % 255) 0]

/-! ## Streaming a row (R89, R91, R94) -/

/-- Elements 0 to 63 of an activation row for a unit, as they leave the feeder queues. -/
def unitRow (fp32 : Bool) (u : MxUnit) (row : List Val) : List Val :=
  (List.range 64).map fun k => passPiece fp32 u.pass true (row.getD (64 * u.chunk + k) (.fin false 0 0))

/-- The partial sum that leaves group `g` of the column: it starts at zero at the group's first row, and each cell adds its exact product. -/
def columnSum (record : BitVec 16) (w : List (List Val)) (x : List Val) (g c : Nat) : Val :=
  (List.range 32).foldl (fun sum i => sum.add ((x.getD (32 * g + i) (.fin false 0 0)).mul (cellWeight record w (32 * g + i) c))) (.fin false 0 0)

/-- The residue that the check column predicts for the group. -/
def predicted (record : BitVec 16) (w : List (List Val)) (x : List Val) (g : Nat) : Nat :=
  (List.range 32).foldl
    (fun sum i => (sum + (x.getD (32 * g + i) (.fin false 0 0)).res * (cellWeight record w (32 * g + i) 32).res) % 255) 0

/-- An accumulator as it is read: a NaN is the quiet one (R108). -/
def quietNan (w : Nat) : Nat := if rd32 w = .nan then 0x7FC00000 else w

/-- One rounding into an accumulator: its new value, the exact discarded remainder, and whether it saturated (integer) or the exact sum lay
beyond the FP32 range. -/
structure Rounded where
  acc : Nat
  rem : Val := .fin false 0 0
  sat : Bool := false
  beyond : Bool := false

def roundInto (int : Bool) (acc : Nat) (g : Val) : Rounded :=
  if int then
    let sum := signed 32 acc + g.scaledInt 0
    let (w, sat) := isat sum
    { acc := w, rem := .ofInt (sum - signed 32 w), sat }
  else if g.isZero then { acc }
  else
    let sum := (rd32 acc).add g
    let w := rne32 sum
    { acc := w, rem := sum.add (rd32 w).negate, beyond := sum.isFin && fpBad w }

/-- One output row in one array: the accumulators of its columns, those before the block's last unit, the saturated ones, the residue Z,
and the non-finite flag (R94). -/
structure MxRow where
  accs : List Nat
  before : List Nat
  sats : List Bool
  z : Nat := 0
  flag : Bool
  deriving DecidableEq, Repr, Inhabited

/-- Residues are added and subtracted mod 255. -/
def resSum (plus minus : List Nat) : Nat := (plus.sum + 255 * minus.length - minus.sum) % 255

/-- One group of one unit passes: each column's sum is rounded into its accumulator, and Z takes the difference from the prediction. -/
def MxRow.group (int : Bool) (record : BitVec 16) (w : List (List Val)) (x : List Val) (r : MxRow) (g : Nat) : MxRow :=
  let sums := (List.range r.accs.length).map (columnSum record w x g)
  let steps := (r.accs.zip sums).map fun e => roundInto int e.1 e.2
  let value := fun (a : Nat) => (fromRegister int a).res
  { r with
    accs := steps.map fun e => e.acc
    sats := (r.sats.zip steps).map fun e => e.1 || e.2.sat
    z := resSum (r.z :: steps.map fun e => value e.acc + e.rem.res) (predicted record w x g :: r.accs.map value)
    flag := r.flag || sums.any (fun v => !v.isFin) || steps.any fun e => e.beyond }

/-- One unit passes; a group without a k below K does not exist (R91). -/
def MxRow.unit (int fp32 : Bool) (record : BitVec 16) (depth : Nat) (row : List Val) (r : MxRow) (u : MxUnit × List (List Val)) : MxRow :=
  let x := unitRow fp32 u.1 row
  ([0, 1].filter fun g => 32 * (2 * u.1.chunk + g) < depth).foldl (MxRow.group int record u.2 x) { r with before := r.accs }

/-- The shape of a matrix macro-op: integer mode, FP32 operands, passes, and M, N and K. -/
structure MxShape where
  int : Bool
  fp32 : Bool
  passes : Nat
  rows : Nat
  cols : Nat
  depth : Nat
  deriving DecidableEq, Repr

/-- The columns of block `nb` that array `a` computes, by number. -/
def MxShape.columnsOf (h : MxShape) (nb a : Nat) : List Nat := ((List.range 32).map fun c => 128 * nb + 32 * a + c).filter fun n => n < h.cols

/-- The rows of D in array `a` for block `nb`, with the units of the block in order. -/
def MxShape.arrayRows (h : MxShape) (record : BitVec 16) (d0 : List (List Nat)) (a b : List (List Val)) (nb i : Nat) : List MxRow :=
  let loads := (blockUnits h.passes h.depth nb).map fun u => (u, loadCells record [] (unitWeights h.fp32 u b i))
  (List.range h.rows).map fun m =>
    let start := (h.columnsOf nb i).map fun n => if h.int then cell d0 m n else quietNan (cell d0 m n)
    loads.foldl (MxRow.unit h.int h.fp32 record h.depth (a.getD m []))
      { accs := start, before := start, sats := start.map fun _ => false, flag := !h.int && start.any fpBad }

/-- The pieces of D in column order: array and its rows. -/
def MxShape.pieces (h : MxShape) (records : List (BitVec 16)) (d0 : List (List Nat)) (a b : List (List Val)) : List (Nat × List MxRow) :=
  (List.range (ceilDiv h.cols 128)).flatMap fun nb => (List.range 4).map fun i => (i, h.arrayRows (records.getD i 0) d0 a b nb i)

/-- An element of D: its value before its last unit, after it, and whether it saturated. -/
structure Element where
  before : Nat
  after : Nat
  sat : Bool
  deriving DecidableEq, Repr, Inhabited

def MxRow.elements (r : MxRow) : List Element :=
  (r.before.zip (r.accs.zip r.sats)).map fun e => { before := e.1, after := e.2.1, sat := e.2.2 }

/-- All elements of D. -/
def MxShape.product (h : MxShape) (records : List (BitVec 16)) (d0 : List (List Nat)) (a b : List (List Val)) : List (List Element) :=
  let ps := h.pieces records d0 a b
  (List.range h.rows).map fun m => ps.flatMap fun p => (p.2.getD m default).elements

/-- The first saturating row of a macro-op. Which row that is where several saturate is the model's choice (log entry 115): the
lowest-numbered. -/
def satRow (e : List (List Element)) : Option Nat := firstIdx (fun r => r.any fun x => x.sat) e

/-! ## The check buffers (R94, R95) -/

/-- The conversion of an element of an MMAS output row: its residue's change, and whether it wrote a non-finite value (R94). -/
def convCheck (int : Bool) (acc : Nat) (stored : Val) : Nat × Bool :=
  let v := fromRegister int acc
  (resSum [stored.res + (v.add stored.negate).res] [v.res], !stored.isFin)

/-- What array `i` keeps of row `m` at the end: Z, the flag, and whether an output of the row is or decodes to a non-finite value; `stored`
gives the values of an MMAS output row. -/
def rowCheck (h : MxShape) (ps : List (Nat × List MxRow)) (stored : Option (List (List Val))) (i m : Nat) : Byte × Bool × Bool :=
  let mine := (ps.filter fun p => p.1 = i).map fun p => p.2.getD m default
  let columns := (List.range (ceilDiv h.cols 128)).flatMap fun nb => h.columnsOf nb i
  let accs := mine.flatMap fun r => r.accs
  let convs : List (Nat × Bool) := match stored with
    | none => []
    | some rows => (columns.zip accs).map fun e => convCheck h.int e.2 ((rows.getD m []).getD e.1 (.fin false 0 0))
  let bad := convs.any fun e => e.2
  (BitVec.ofNat 8 (resSum ((mine.map fun r => r.z) ++ convs.map fun e => e.1) []), (mine.any fun r => r.flag) || bad,
    (!h.int && accs.any fpBad) || bad)

/-- The arrays of core `p` at the end of a macro-op: the weights of the last unit, and the check buffers. -/
def State.setArrays (p : Nat) (h : MxShape) (records : List (BitVec 16)) (b : List (List Val)) (ps : List (Nat × List MxRow))
    (stored : Option (List (List Val))) (s : State) : State :=
  s.onCore p fun c =>
    { c with
      arrays := (List.range 4).foldl
        (fun t i =>
          let old := Tab.get {} i t
          let checks := (List.range h.rows).map (rowCheck h ps stored i)
          let cells := match (blockUnits h.passes h.depth (ceilDiv h.cols 128 - 1)).getLast? with
            | some u => loadCells (records.getD i 0) old.active (unitWeights h.fp32 u b i)
            | none => old.active
          Tab.set {} i
            { active := cells, shadow := cells, residues := checks.map fun e => e.1, flags := checks.map fun e => e.2.1
              outs := checks.map fun e => e.2.2 } t) c.arrays }

/-! ## The macro-ops -/

/-- What a matrix macro-op leaves: D, the converted output, flags, and the arrays' registers and check buffers. -/
def mmaEffect (q : Seat) (m : MacroOp) (out : Option (BitVec 64)) (s : State) : State :=
  match s.seatView q m.op0, s.seatView q m.op1, s.seatView q m.op2 with
  | some d, some a, some b =>
    let h : MxShape :=
      { int := d.d.fmt = 0xC, fp32 := a.d.fmt = 0, passes := m.pass.toNat, rows := d.d.rows, cols := d.d.cols, depth := a.d.cols }
    let records := s.arrayRecords q.p
    let d0 := if opZero m then [] else s.codes d
    let vb := s.values b
    let ps := h.pieces records d0 (s.values a) vb
    let es := h.product records d0 (s.values a) vb
    let bad := fun (w : Nat) => !h.int && fpBad w
    let s := match satRow es with
      | some row => s.note .arraySaturate (srcCore q.p) row
      | none => s
    match out.bind fun w => s.seatView q w with
    | none =>
      let s := (s.setArrays q.p h records vb ps none).putTile d { codes := es.map fun r => r.map fun x => x.after, scales := [] }
      s.coreRaised q.p { overflowed := es.any fun r => r.any fun x => bad x.after }
    | some o =>
      -- every unit but the last writes D
      let units := ceilDiv a.d.cols 64 * (if h.fp32 then h.passes else 1)
      let s := if units ≤ 1 then s else s.putTile d { codes := es.map fun r => r.map fun x => x.before, scales := [] }
      let overflowed := decide (1 < units) && es.any fun r => r.any fun x => bad x.before
      let (t, r) := convertTile o.d m.rnd.toNat (es.map fun r => r.map fun x => fromRegister h.int x.after)
      let stored := (List.range h.rows).map fun i => (List.range h.cols).map fun c => o.d.value t i c
      ((s.setArrays q.p h records vb ps (some stored)).putTile o t).coreRaised q.p ({ overflowed : Raised }.join r)
  | _, _, _ => s

/-- The views a matrix macro-op reads: D only without ZERO (R86). -/
def mmaReads (m : MacroOp) : List (BitVec 64) := if opZero m then [m.op1, m.op2] else [m.op0, m.op1, m.op2]

/-- The work of MMA. -/
def mmaWork (m : MacroOp) : UnitWork :=
  { reads := viewsOf (mmaReads m), writes := viewsOf [m.op0], effect := fun _ q f s => (mmaEffect q m none s, f) }

def mma (i : Issue) (m : MacroOp) (s : State) : State := s.issueUnit i ocMma .mma m noHub (mmaWork m)

/-- MMA (R86 to R93, R99). -/
def execMma (i : Issue) (m : MacroOp) (s : State) : Out := commit s (mma i m s)

/-- The output view of MMAS: operand 0 with the descriptor that EXT names. -/
def mmasOut (m : MacroOp) : BitVec 64 := withDesc m.op0 (opExt m.op0)

/-- The work of MMAS. -/
def mmasWork (m : MacroOp) : UnitWork :=
  { reads := viewsOf (mmaReads m), writes := viewsOf [m.op0, mmasOut m], effect := fun _ q f s => (mmaEffect q m (some (mmasOut m)) s, f) }

def mmas (i : Issue) (m : MacroOp) (s : State) : State := s.issueUnit i ocMmas .mmas m noHub (mmasWork m)

/-- MMAS (R87, R115, R139). -/
def execMmas (i : Issue) (m : MacroOp) (s : State) : Out := commit s (mmas i m s)

end Sys2Proof.Machine
end

