-- ==== Sys2Proof/Machine/Seq.lean ====
section
/-! DEFINITION. The sequencer's macro-ops (R61, R70), macro-ops that wait for their unit or hub (R57, R445), the completion of a macro-op (R57, R66,
R95) and of a code refill (R81, R83). -/
namespace Sys2Proof.Machine

def nop (i : Issue) (m : MacroOp) (s : State) : State := s.issueSequencer i 0 m fun _ s => s

/-- NOP (R61). -/
def execNop (i : Issue) (m : MacroOp) (s : State) : Out := commit s (nop i m s)

def wait (i : Issue) (m : MacroOp) (s : State) : State := s.issueSequencer i 1 m fun _ s => s

/-- WAIT (R61, R65, R70). -/
def execWait (i : Issue) (m : MacroOp) (s : State) : Out := commit s (wait i m s)

def post (i : Issue) (m : MacroOp) (s : State) : State := s.issueSequencer i 2 m fun _ s => s

/-- POST (R61). -/
def execPost (i : Issue) (m : MacroOp) (s : State) : Out := commit s (post i m s)

/-- Hold a strand until its macro-ops have completed (R61). -/
def State.holdStrand (h : Hold) (q : Seat) (t : Nat) (s : State) : State :=
  (s.onStrand q.p t fun x => { x with hold := h, st := .waitFence }).clearFence q t

def fence (i : Issue) (m : MacroOp) (s : State) : State :=
  s.issueSequencer i ocFence m fun q s => s.holdStrand .fence q i.strand.val

/-- FENCE (R61). -/
def execFence (i : Issue) (m : MacroOp) (s : State) : Out := commit s (fence i m s)

def frameEnd (i : Issue) (m : MacroOp) (s : State) : State :=
  s.issueSequencer i ocFrameEnd m fun q s => s.holdStrand .frameEnd q i.strand.val

/-- FRAME_END (R61, R62, R70). -/
def execFrameEnd (i : Issue) (m : MacroOp) (s : State) : Out := commit s (frameEnd i m s)

/-! ## Macro-ops that wait for their unit or their hub (R445, R57) -/

/-- The work of a macro-op of MX, VX or HQ; those of the other units never wait. -/
def workOf (k : OpKind) (m : MacroOp) : UnitWork :=
  match k with
  | .mma => mmaWork m
  | .mmas => mmasWork m
  | .vprog => vprogWork m
  | .vred => vredWork m
  | .seed => seedWork m
  | .turn => turnWork m
  | .upda => updaWork m
  | .updb => updbWork m
  | .upds => updsWork m
  | _ => {}

/-- A flight that waited starts; without a seat its plan no longer runs, and it does nothing. -/
def State.startWaiting (p : Nat) (seat : Option Seat) (f : Flight) (s : State) : State :=
  match f.waits, seat with
  | none, _ => s
  | some u, some q => (s.startFlight q f u (workOf f.kind f.op)).mirrorTwin q
  | some _, none => s.onFlight p f.id fun x => { x with waits := none, withheld := true }

/-- The next macro-op of MX or VX starts as the one before it has completed (R445). After a mismatch the rows of D that it had streamed hold
unspecified values (R104). -/
def State.startNext (p : Nat) (seat : Option Seat) (unit : ExecUnit) (failed : Bool) (s : State) : State :=
  match (s.core p).flights.find? fun x => x.kind.unit == unit with
  | none => s
  | some f =>
    let s := match seat with
      | some q => if failed then s.freeDest [{ f with dest := ((workOf f.kind f.op).writes q s).flatMap View.keyRuns }] else s
      | none => s
    s.startWaiting p seat f

/-- What has waited longest at hub `h` takes a slot. -/
def State.serveOne (h : Nat) (w : HubWait) (s : State) : State :=
  match w with
  | .packet p _ u => s.landWaiting p u
  | .entry p id =>
    match (s.core p).flights.find? fun f => f.id = id with
    | none => s
    | some f => (s.onHub h fun v => { v with slots := v.slots + 1 }).startWaiting p (s.seatAt p) f

/-- Free slots of hub `h` go to what waits for them, in order (R57). -/
def State.serveHub (h : Nat) (s : State) : State :=
  s.each (s.hub h).waiting fun s w =>
    if 128 ≤ (s.hub h).slots || (s.hub h).waiting.head? ≠ some w then s
    else (s.onHub h fun v => { v with waiting := v.waiting.tail }).serveOne h w

/-! ## Completion -/

/-- The check column compares every output row of an MX macro-op (R94, R95). -/
def State.compareRows (p : Nat) (f : Flight) (s : State) : State :=
  if f.kind.unit = .mx && !f.withheld then
    match (s.core p).mismatch with
    | some (a, row) => s.arrayFailed p f .arrayCheck (arrayDetail a row 0)
    | none => s
  else s

/-- What waited for a macro-op that has retired goes on. -/
def State.afterRetire (p : Nat) (seat : Option Seat) (f : Flight) (failed : Bool) (s : State) : State :=
  if f.kind.unit = .mx || f.kind.unit = .vx then s.startNext p seat f.kind.unit failed
  else s.each f.hub.toList fun s h => s.serveHub h

/-- Entry `entry` of physical core `p` completes. -/
def State.completeFlight (p : Nat) (seat : Option Seat) (entry : Nat) (u : Upset) (s : State) : State :=
  match (s.core p).flights.find? fun f => f.id = entry with
  | none => s
  | some f =>
    -- a slot that a reset has freed goes to what waits
    if f.waits.isSome then s.each f.hub.toList fun s h => s.serveHub h
    else
      let s := s.passCopied f.detour
      let f := ((s.core p).flights.find? fun x => x.id = entry).getD f
      if !s.mayComplete p f then s
      else
        let dead := (s.core p).mxDead
        let s := (s.upset p f (upsetAtEnd u)).compareRows p f
        match (s.core p).flights.find? fun f => f.id = entry with
        | none => s
        | some f => (s.retireFlight p seat f).afterRetire p seat f (f.kind.unit = .mx && !dead && (s.core p).mxDead)

def macroOpCompletion (core : Fin 120) (entry : Nat) (u : Upset) (s : State) : State :=
  let (p, seat) := s.coreSeat core.val
  s.completeFlight p seat entry u

/-- MACRO_OP_COMPLETION (R57, R66, R95). -/
def execMacroOpCompletion (core : Fin 120) (entry : Nat) (u : Upset) (s : State) : Out := commit s (macroOpCompletion core entry u s)

/-- Poison reached a code refill (R197): it ends, and the core's issue stops. -/
def State.refillPoisoned (p line b : Nat) (s : State) : State :=
  ((s.onCore p fun c => Core.nextRefill { c with refills := c.refills.filter fun x => x ≠ line }).readPoison b).checkFailed p

def icacheRefillDone (core : Fin 120) (line : Nat) (u : Upset) (s : State) : State :=
  let p := s.phys core.val
  let k := s.physKey (codeKey p line 0)
  let (h, c, b) := hbmParts k
  if !(s.core p).refills.contains line then s
  else if decide (k < hbmEnd) && s.detours h c (b / 64) false then
    -- the request waits in the detour queue, and a later row brings the line (R81, R200)
    if (s.hub h).detour.any fun d => d.addr = k then s else s.detourRequest k [] false
  else
    -- a poisoned line faults at every refill until its plan is loaded again, whatever else the row carries (R213)
    let kept := s.runPoisoned (codeKey p line 0) 2048
    let u := match u with
      | .corrected _ => u
      | _ => if kept then .none else u
    match s.joinPoison u (if kept then some (codeKey p line 0 / 64) else none) with
    | (s, .uncorrectable b) => (s.poisonBlock (codeKey p line 0 / 64)).refillPoisoned p line b
    | (s, .corrected b) => (s.eccCorrected b).onCore p (Core.fill line)
    | (s, .icacheParity) => (s.onCore p fun c => { c with used := c.used.filter fun x => x ≠ line }).fault .icacheParity (srcCore p)
    | (s, .badNativeWord) => ((s.onCore p (Core.fill line)).fault .macroOpFault (srcCore p)).stopCore p
    | (s, _) => s.onCore p (Core.fill line)

/-- ICACHE_REFILL_DONE (R81, R83, R197). -/
def execIcacheRefillDone (core : Fin 120) (line : Nat) (u : Upset) (s : State) : Out := commit s (icacheRefillDone core line u s)

end Sys2Proof.Machine
end

