-- ==== Sys2Proof/Machine/Ticks.lean ====
section
/-! DEFINITION. Frames: the deadline (R41 to R43, R46, R67), the tick (R36, R38, R44, R47, R48, R50, R182, R317, R324, R337, R344), and the
messages that bring a frame-abort (R43, R50). -/
namespace Sys2Proof.Machine

/-! ## The clock contour -/

/-- The clock contour of a phase that runs variant `c` of a plan: slower in fallback while the slack covers the need (R342). -/
def State.clockFor (s : State) (r : Resident) (c : Nat) : Nat :=
  let n := s.needOf r
  if s.power.fallback && n ≤ s.slackOf r then max c n else c

/-- The dispatch whose first frame is `f`. -/
def State.startingAt (s : State) (f : Nat) : Option Dispatch :=
  s.job.dispatches.find? fun d => !d.done && !d.begun && d.first = f && d.contour.isSome

/-- The contour that a dispatch runs at: its variant's. -/
def State.contourOf (s : State) (d : Dispatch) : Nat :=
  match s.variantOf d with
  | some v => v.contour
  | none => 0

/-- G leaves no room for the clock switch (R47). -/
def State.shortGuard (s : State) : Bool :=
  match s.job.bind with
  | some b => b.guardNs < 250
  | none => false

/-- The clock of the phase that begins at the next tick. -/
def State.clockAhead (s : State) : Option Nat :=
  (s.startingAt (s.job.now + 1)).bind fun d => (s.planOf d).map fun r => s.clockFor r (s.contourOf d)

/-- In the guard band the clock switches for a phase that begins at the next tick. -/
def State.switchAhead (s : State) : State :=
  if s.shortGuard then s
  else
    match s.clockAhead with
    | some c => s.setClock c
    | none => s

/-- A rising frequency has its voltage raised before the switch (R47); that this happens in the frame before the phase is the model's
choice (log entry 113). -/
def State.raiseVolts (s : State) : State :=
  if s.power.floor then s
  else
    match s.clockAhead with
    | some c => s.onPower fun p => { p with cmpVolts := max p.cmpVolts (cmpMillivolts c) }
    | none => s

/-! ## The checks of the deadline (R42, R67) -/

/-- The unfinished work of a core at the deadline: a strand short of FRAME_END, or a PUT that waits for acknowledgements; also where these have
ended since (R42, R53), or a reset has taken them (R187, R370). -/
def Core.unfinished (c : Core) : Bool :=
  c.broken || c.late || c.frameStrands.any (fun e => e.2.work) || (!c.scoreboard && c.flights.any fun f => f.kind == .put && 0 < f.left)

/-- A hub still executes an update or turn macro-op. -/
def State.hubBusy (s : State) (h : Nat) : Bool :=
  s.cores.any fun e => e.2.flights.any fun f => f.kind.unit == .hq && f.hub == some h

/-- The links of the slots of this frame that end here, in the circuit modes given, and have not delivered. -/
def State.undeliveredOn (s : State) (modes : List Nat) : List Nat :=
  match s.runningPlan with
  | none => []
  | some (r, v, f) =>
    (List.range 12).flatMap fun b =>
      ((placeSpans (s.linksAt (opposite b)) (s.spansIn r.plan v f b)).getD []).filterMap fun x =>
        if x.1.hop = x.1.circuit.hops && modes.contains x.1.circuit.mode && !s.job.delivered.contains (x.1.circuit.id, x.1.window) then
          some (x.2.headD 0)
        else none

/-- The link die of a direct slot that ends here and has not delivered its token (R42). -/
def State.undelivered (s : State) : Option Nat := (s.undeliveredOn [0]).head?.map fun n => n / 4

/-- The first unit that finds the frame overrun. Which of several counts as the first is the model's choice (log entry 111): the cores
in table order, then the hubs by number, then the link dies. -/
def State.lateUnit (s : State) : Option Nat :=
  if !s.hasWork then none
  else
    match s.cores.find? fun e => e.2.unfinished with
    | some e => some (srcCore e.1)
    | none =>
      match (List.range 8).find? s.hubBusy with
      | some h => some (srcHub h)
      | none => s.undelivered.map srcLinkDie

/-- The queues of a core as the deadline finds them (R67, R68): in scoreboard mode, those it will return to. -/
def Core.queuesAtDeadline (c : Core) : Table Nat :=
  c.closing.getD (match c.saved with
    | some v => v.1
    | none => c.queues)

/-- A token queue of a core differs from its entry count (R67): DETAIL [7:0] the queue, [15:8] the count. -/
def State.checkQueues (s : State) (p : Nat) : State :=
  let c := s.core p
  let queues := c.queuesAtDeadline
  s.each ((List.range 32).filter fun q => Tab.get 0 q queues ≠ Tab.get 0 q c.entry) fun s q =>
    (s.fault .tokenImbalance (srcCore p) (q + Tab.get 0 q queues * 256)).overrun

def State.deadlineChecks (s : State) : State :=
  let late := s.lateUnit
  let s := match late with
    | some src => (s.note .frameOverrun src).overrun
    | none => s
  match s.runningPlan with
  | some (r, _, _) =>
    if s.hasWork then
      s.each ((s.coresOn r).map fun e => e.2.2) fun s p => s.checkQueues p
    else s
  | none => s

/-! ## Frame-boundary messages (R43) -/

/-- Bits [111:0] of the message. -/
def boundaryBits (abort overflowed hold : Bool) (tag : BitVec 16) (frame req flood seq depth : Nat) (hash : BitVec 16) : Nat :=
  1 + (if abort then 2 ^ 8 else 0) + (if overflowed then 2 ^ 9 else 0) + (if hold then 2 ^ 10 else 0) + tag.toNat * 2 ^ 16 +
    frame % 2 ^ 32 * 2 ^ 32 + req % 16 * 2 ^ 64 + flood % 16 * 2 ^ 68 + seq % 2 ^ 16 * 2 ^ 72 + depth % 256 * 2 ^ 88 + hash.toNat * 2 ^ 96

def withCrc16 (n : Nat) : BitVec 128 := BitVec.ofNat 128 (n + (crc16 (leBytes 14 n)).toNat * 2 ^ 112)

/-- PHASE_SEQ of the message: the phase whose cut is next, else the phase that begins next. -/
def Job.floodSeq (j : Job) : Nat :=
  match j.nextCut with
  | some d => d.phaseSeq.toNat
  | none =>
    match (j.dispatches.filter fun d => !d.done && !d.begun).head? with
    | some d => d.phaseSeq.toNat
    | none => 0

/-- The message of this deadline. -/
def State.boundaryMessage (s : State) (b : Bind) : BitVec 128 :=
  let seq := s.job.floodSeq
  withCrc16 (boundaryBits (s.job.attempt.any fun a => a.abortFo.isSome) s.job.overrunSeen (s.mer.lock == 3) b.jobTag
    (unsigned 32 s.job.frame) s.job.reqSent (Tab.get 0 seq s.job.floods) seq s.mer.depth.toNat b.hash)

/-- The links of every bonded port. -/
def State.dataLinks (s : State) : List Nat := ((List.range 12).flatMap s.bondedLinks).filter fun n => (s.link n).state == .up

/-- The job frame index that a message's FRAME_LO stands for. -/
def Job.frameOf (j : Job) (lo : Word) : Int := j.frame + signed 32 (unsigned 32 ((lo.toNat : Int) - j.frame))

/-- A frame-abort learned of in frame `now` for the running attempt (R49, R50). -/
def State.learnAbort (now fo : Nat) (s : State) : State :=
  ((s.onJob fun j => { j with aborts := satInc j.aborts }).note .frameAbort srcModule).knowAbortAt now fo

/-- Act on the message last received on a link: the hash, the ABORT flag and FLOOD of a neighbour of this job (R39, R43, R50). -/
def State.actOn (b : Bind) (s : State) (e : Nat × Neighbour) : State :=
  let n := e.2
  if !n.fresh || n.jobTag ≠ b.jobTag then s
  else
    let s := s.onJob fun j =>
      { j with neighbours := Tab.modify {} e.1 (fun n =>
          { n with fresh := false, floods := Tab.set 0 n.phaseSeq (n.flood + 1) n.floods }) j.neighbours }
    let s := if n.bindHash = b.hash then s
      else if n.splitSeen then s.onJob fun j => { j with splitDue := j.splitDue || j.nextLive.isSome }
      else
        (s.note .contourSplit (srcLink e.1)).onJob fun j =>
          { j with splitDue := true, neighbours := Tab.modify {} e.1 (fun n => { n with splitSeen := true }) j.neighbours }
    match s.job.attempt with
    | some a =>
      let f := s.job.frameOf n.frameLo
      if n.abort && a.abortFo.isNone && decide ((a.firstFrame : Int) ≤ f) then s.learnAbort s.job.now f.toNat else s
    | none => s

/-- FLOOD of the phase whose cut is next: the highest of its own request and those received (R46). -/
def State.raiseFlood (s : State) : State :=
  match s.job.nextCut with
  | none => s
  | some d =>
    let seq := d.phaseSeq.toNat
    let tag := s.jobTag
    let heard := (s.job.neighbours.filter fun e => e.2.jobTag == tag).map fun e => Tab.get 0 seq e.2.floods - 1
    s.onJob fun j => { j with floods := Tab.modify 0 seq (fun v => heard.foldl max (max v j.reqSent)) j.floods }

/-- The request of this deadline (R340). -/
def State.formRequest (s : State) : State :=
  let req := s.request
  let n := match s.job.nextCut.bind s.planOf with
    | some r => s.powerNeed r
    | none => s.power.nPow
  (s.onJob fun j => { j with reqSent := req, fell := j.fell || decide (req < j.reqSent) }).onPower fun p => { p with nPow := n }

/-- The deadline of the frame in progress (R41). -/
def State.takeDeadline (b : Bind) (s : State) : State :=
  let s := (s.meridianTo (s.job.tickAt + b.period - b.guardNs)).pumpSides.deadlineChecks
  let s := s.onRouter fun r => { r with slotBuf := r.slotBuf.filter fun h => h.forward.isSome }
  let s := ((s.each s.job.neighbours (State.actOn b)).applyPower).formRequest.raiseFlood
  let msg := s.boundaryMessage b
  let s := s.each s.dataLinks fun s n => s.sendSide n msg
  s.switchAhead.onJob fun j => { j with open_ := false }

def deadline (s : State) : State :=
  match s.job.bind with
  | some b => if s.job.open_ then s.takeDeadline b else s
  | none => s

/-- DEADLINE (R41 to R43, R46, R67). -/
def execDeadline (s : State) : Out := commit s (deadline s)

def frameBoundaryMessage (link : Fin 24) (msg : BitVec 128) (s : State) : State :=
  let n := msg.toNat
  let f := fun (hi lo : Nat) => natBits n hi lo
  if (crc16 (leBytes 14 n)).toNat ≠ f 127 112 then s.onLink link.val fun l => { l with badSide := l.badSide + 1 }
  else if s.job.bind.isNone || (s.portOfBonded link.val).isNone || f 7 0 ≠ 1 then s
  else
    s.onJob fun j =>
      { j with neighbours := Tab.modify {} link.val (fun o =>
          { o with
            jobTag := BitVec.ofNat 16 (f 31 16), abort := natBit n 8, req := f 67 64, flood := f 71 68, phaseSeq := f 87 72
            depth := BitVec.ofNat 8 (f 95 88), bindHash := BitVec.ofNat 16 (f 111 96), frameLo := BitVec.ofNat 32 (f 63 32)
            fresh := true }) j.neighbours }

/-- FRAME_BOUNDARY_MESSAGE (R43): held for the next deadline. -/
def execFrameBoundaryMessage (link : Fin 24) (msg : BitVec 128) (s : State) : Out := commit s (frameBoundaryMessage link msg s)

def frameAbort (jobTag : BitVec 16) (step : Word) (attempt : Byte) (fo : BitVec 64) (s : State) : State :=
  if s.job.bind.isNone || jobTag ≠ s.jobTag then s
  else if attempt ≠ s.attemptTag then s.onRouter fun r => { r with stale := satInc r.stale }
  else if s.job.attempt.any fun a => a.step = step then s.learnAbort s.frameNow fo.toNat
  else s

/-- FRAME_ABORT (R49, R50): another job's is ignored (R256), another attempt's is stale (R247). -/
def execFrameAbort (jobTag : BitVec 16) (step : Word) (attempt : Byte) (fo : BitVec 64) (s : State) : Out :=
  commit s (frameAbort jobTag step attempt fo s)

/-! ## The phase learner (R337) -/

/-- Background work ran in the frame that ended. -/
def State.backgroundRan (s : State) : Bool :=
  s.power.testSpent || s.power.background || (s.hubs.any fun e => e.2.retraining.isSome || (e.2.sweeping && s.power.cleared.contains 5)) ||
    (s.sealSt.copyOut.isSome && s.power.cleared.contains 2)

/-- E + (measured − E) / 8, to the nearest µJ, a half upwards (log entry 132). -/
def learn (e m : Nat) : Nat := ((e : Int) + (2 * ((m : Int) - e) + 8) / 16).toNat

def Resident.learnt (c : Nat) (m : List Nat) (r : Resident) : Resident :=
  let n := ((r.measured.find? fun e => e.1 = c).map fun e => e.2).getD 0
  { r with
    energies := r.energies.map fun e => if e.1 = c then (c, (e.2.zip m).map fun x => learn x.1 x.2) else e
    measured := (c, min 8 (n + 1)) :: r.measured.filter fun e => e.1 ≠ c }

/-- A plan's frame has ended: it is counted by its clock, and the learner takes its energies. -/
def State.learnFrame (e : TickEnv) (s : State) : State :=
  if !s.hasWork then s
  else
    let s' := s.onPower fun p =>
      if p.floor then { p with framesFloor := satInc p.framesFloor }
      else { p with framesAt := setAt p.frameClock (satInc (p.framesAt.getD p.frameClock 0)) p.framesAt }
    match s.job.running with
    | none => s'
    | some d =>
      if s.power.floor || s.power.frameClock ≠ s.job.contour || s.backgroundRan then s'
      else
        s'.onJob fun j => { j with slots := Tab.modify {} d.slot (fun x =>
          { x with plan := x.plan.map (Resident.learnt s.job.contour [e.compute, e.hubs, e.hbm, e.links]) }) j.slots }

/-! ## Phases and attempts -/

/-- The attempt begins at frame `f` (R182, R247, R305). -/
def State.startAttempt (step : Word) (f contour : Nat) (s : State) : State :=
  let lost := s.topo.notices
  let s := s.onJob fun j =>
    { j.countTry step 1 with
      attempts := max 1 j.attempts, attempt := some { step, firstFrame := f, contour, lost } }
  let s := s.each (List.range 8) fun s h => s.onHub h fun v => { v with attempt := s.job.attempts, overflow := false }
  let s := s.onCores fun t => t.map fun e => (e.1, { e.2 with overflow := false, broken := false })
  (s.onLog fun l => { l with integ := 0 }).onSealSt fun v => { v with granules := [] }

/-- The attempt's work stops with the frame in progress (R36, R324). -/
def State.stopNow (s : State) : State :=
  s.onJob fun j => { j with attempt := j.attempt.map fun a => { a with stopFrom := some j.now } }

/-- A contour change with no room in the guard band: an empty frame goes before the phase (R47). -/
def State.insertFrame (d : Dispatch) (c : Nat) (s : State) : State :=
  let s := s.onJob fun j =>
    { j with
      contour := c, running := none
      dispatches := j.dispatches.map fun e =>
        if !e.done && !e.begun && d.first ≤ e.first then { e with first := e.first + 1, shift := e.shift + 1 } else e }
  match s.planOf d with
  | some r => s.setClock (s.clockFor r c)
  | none => s

/-- The links whose neighbour's FLOOD for the phase differs (R46). -/
def State.floodSplit (s : State) (d : Dispatch) : List Nat :=
  let tag := s.jobTag
  (s.job.neighbours.filter fun e =>
    let v := Tab.get 0 d.phaseSeq.toNat e.2.floods
    e.2.jobTag == tag && v ≠ 0 && v ≠ d.voted + 1).map fun e => e.1

/-- The entry counts of a block's queues (R67). -/
def Resident.entryOf (r : Resident) (b : Nat) : Table Nat :=
  match r.plan.code[r.role]? with
  | none => []
  | some x => Tab.setRun 0 0 (x.tokens.getD b []) []

/-- A frame-abort of the running attempt at `fo`, for another cause than an overrun: known and broadcast, unless one is known already. -/
def State.abortRunning (fo : Nat) (s : State) : State :=
  match s.job.attempt with
  | some a =>
    if a.abortFo.isSome then s
    else
      ((s.knowAbort fo).sendAbort a.step fo).onJob fun j => { j with attempt := j.attempt.map fun a => { a with abortSent := true } }
  | none => s

/-- Preloads that no refill slot took before the phase's first tick are not made (R82). -/
def Core.endPreloads (home : Nat) (c : Core) : Core :=
  { c with wanted := c.wanted.filter fun e => !e.2 || e.1 / regionLines ≠ home }

/-- A phase begins: its contour, its queues and its strands (R47, R67, R182). -/
def State.startPhase (d : Dispatch) (r : Resident) (s : State) : State :=
  let c := s.contourOf d
  let split := s.floodSplit d
  let mark := fun (e : Dispatch) => if e = d then { e with begun := true } else e
  let s := s.onJob fun j => { j with contour := c, dispatches := j.dispatches.map mark }
  let s := (s.setClock (s.clockFor r c)).settleVolts
  let s := s.each (s.coresOn r) fun s e =>
    let q := r.entryOf e.2.1
    let s := s.onCore e.2.2 (Core.endPreloads r.home)
    s.onCore e.2.2 fun x =>
      if x.scoreboard then { x with saved := some (q, []), entry := q } else { x with queues := q, entry := q, strands := [] }
  if split.isEmpty then s else (s.each split fun s n => s.note .contourSplit (srcLink n)).abortRunning s.job.now

/-- Physical core `p` took its core reset at this tick, before the frame's work: the frame runs on it once the reset completes (R371). -/
def State.justReset (s : State) (p : Nat) : Bool :=
  s.dev.resets.any fun r => r.level = .core && r.target = p && r.due = s.clock.uptime + 2000

/-- The frame gives cores their work (R42, R62, R72): a strand with a cut has at least the FRAME_END after it (R150). -/
def State.releaseStrands (d : Dispatch) (r : Resident) (v : Variant) (s : State) : State :=
  let i := s.job.now - d.first
  let s := s.onCores fun t => t.map fun e =>
    (e.1, { e.2 with mxDead := false, stopped := e.2.inReset && !s.justReset e.1 })
  s.each (s.coresOn r) fun s e =>
    let work := v.cutsAt r.role e.2.1 i
    if work.isEmpty then s
    else
      -- a field test gives way and starts again in a later frame; a scoreboard run keeps its strands (R72, R364)
      s.onCore e.2.2 fun c =>
        let c := if c.test.state = .running then c.leaveTest else c
        { c with worked := true }.onFrameStrands fun strands =>
          work.foldl (fun (t : Table Strand) (x : Nat × Nat) => Tab.modify {} x.1 (fun y => { y with st := .ready, work := true }) t) strands

/-- The frame has an UPDB or UPDS on this module. -/
def Resident.updatesIn (r : Resident) (v : Variant) (i : Nat) : Bool :=
  (r.plan.blockList.filter fun rb => rb.1 = r.role).any fun rb => (List.range 64).any fun t =>
    (r.plan.frameOps v rb.1 rb.2 t i).any fun o => o.1.opcode = ocUpdb || o.1.opcode = ocUpds

/-- Before the attempt's first update frame, every hub holds RELEASE and has ended its sweep; else BUDDY_LAG, and the frame is
overrun (R324). -/
def State.checkLag (r : Resident) (v : Variant) (i : Nat) (s : State) : State :=
  if (s.job.attempt.any fun a => a.updated) || !r.updatesIn v i then s
  else
    match (List.range 8).find? fun h => (s.hub h).released ≠ (s.hub h).commit || (s.hub h).sweeping with
    | none => s.onJob fun j => { j with attempt := j.attempt.map fun a => { a with updated := true } }
    | some h => (s.note .buddyLag (srcHub h)).overrun.stopNow

/-- Run the frame in progress as one of dispatch `d`. -/
def State.runFrame (d : Dispatch) (s : State) : State :=
  match s.planOf d, s.variantOf d with
  | some r, some v =>
    let begins := !d.begun
    let s := if begins then s.startPhase d r else s
    let d := { d with begun := true }
    let s := s.onJob fun j => { j with running := some d }
    let s := (s.releaseStrands d r v).checkLag r v (s.job.now - d.first)
    -- A phase that begins before an earlier one has ended cannot run beside it.
    if s.job.dispatches.any fun e => e.step = d.step && !e.done && e.begun && e ≠ d && s.covers e s.job.now then s.overrun else s
  | _, _ => s

/-- The dispatch of a step that has the frame in progress: one that begins, else the one that runs on. -/
def State.frameDispatch (s : State) (step : Word) : Option Dispatch :=
  let f := s.job.now
  let mine := fun (d : Dispatch) => d.step = step && !d.done && s.covers d f
  (s.job.dispatches.find? fun d => mine d && !d.begun && d.first = f).or (s.job.dispatches.find? fun d => mine d && d.begun)

/-- No frame of a step may begin: the job is suspended, or a reshape window, a switch or a migration is open (R302, R307, R308). -/
def State.noWork (s : State) : Bool :=
  s.job.suspended || s.topo.window.isSome || s.topo.switchAt.isSome || (s.topo.reshape.any fun r => r.opened.isSome) ||
    decide (s.job.frame < 0)

/-- A plan that the step runs is still in translation. -/
def State.inTranslation (s : State) (step : Word) : Bool :=
  s.job.dispatches.any fun d => d.step = step && !d.done && (Tab.get {} d.slot s.job.slots).loading.isSome

/-- No further frame issues work of the attempt: every strand that has begun and not ended the plan is HALTED (R50, R63). -/
def State.haltStrands (s : State) : State :=
  let halt := fun (x : Strand) => if x.st = .idle || x.st = .planDone then x else { x with st := .halted, work := false }
  s.onCores fun t => t.map fun e => (e.1, e.2.onFrameStrands fun t => t.map fun x => (x.1, halt x.2))

/-- Begin the work of the frame in progress. -/
def State.beginFrame (s : State) : State :=
  let s := s.onJob fun j => { j with running := none }
  if s.noWork then s
  else
    let f := s.job.now
    let s := match s.job.attempt, s.job.nextLive with
      | none, some d =>
        if f < d.first then s
        else
          let s := s.startAttempt d.step f (s.contourOf d)
          -- A core's rerun has not passed by the retry's first tick: the frame counts as overrun (R365).
          let s := if s.retrying && s.rerunAwaited then s.overrun else s
          -- A step whose first frame has passed cannot run.
          if d.first < f then s.overrun.stopNow
          -- The translation of an inset's plan has not ended (R308), or the counter is not locked: no frame is issued (R35, R36).
          else if s.inTranslation d.step || (s.mer.lock ≠ 2 && s.mer.lock ≠ 3) then (s.abortRunning f).stopNow
          else s
      | _, _ => s
    match s.job.attempt with
    | none => s
    | some a =>
      if a.window.isSome then if a.stopFrom.isSome then s.haltStrands else s
      else if a.stopFrom.any fun g => decide (g ≤ f) then s.haltStrands
      else
        match s.frameDispatch a.step with
        | none => s
        | some d =>
          let c := s.contourOf d
          if !d.begun && s.shortGuard && c ≠ s.job.contour then s.insertFrame d c else s.runFrame d

/-! ## Seal windows (R48, R50) -/

/-- Where the step's own seal window starts and its length: after its last phase. -/
def State.ownWindow (s : State) (step : Word) : Option (Nat × Nat) :=
  (s.job.dispatches.filter fun d => d.step = step && !d.done).findSome? fun d =>
    match s.planOf d with
    | some r => if r.plan.lastPhase then some (d.first + s.framesOf d, r.plan.sealFrames) else none
    | none => none

/-- The window that the attempt has next: start, frames, and whether it is an abort seal window. -/
def State.nextWindow (s : State) (b : Bind) (a : Attempt) : Option SealWindow :=
  let own := s.ownWindow a.step
  match a.abortFo with
  | none => own.map fun w => { start := w.1, frames := w.2, ofAbort := false }
  | some fo =>
    let ab : SealWindow := { start := fo + b.horizon + 1, frames := b.abortSeal, ofAbort := true }
    match own with
    | some w => if w.1 < ab.start then some { start := w.1, frames := w.2, ofAbort := false } else some ab
    | none => some ab

/-- Open the seal window that is due; the module votes (R48, R317). -/
def State.openWindow (b : Bind) (unitsSilent : Bool) (s : State) : State :=
  match s.job.attempt with
  | none => s
  | some a =>
    if a.window.isSome then s
    else
      match s.nextWindow b a with
      | none => s
      | some w =>
        if s.job.now < w.start then s
        else
          let w := { w with start := s.job.now }
          let s := s.onJob fun j => { j with attempt := some { a with window := some w }, running := none }
          s.formVote a unitsSilent

/-- At the tick that ends the seal window of an abandoned attempt, its own one or an abort seal window, a core with a macro-op of the attempt
left takes a core reset, so that no retry inherits stuck work (R371). -/
def State.resetStale (s : State) : State :=
  s.each ((s.cores.filter fun e => !e.2.flights.isEmpty && !e.2.scoreboard).map fun e => e.1) fun s p => s.coreReset p causeStale

/-- The tick that ends a seal window applies the decision. -/
def State.closeWindow (s : State) : State :=
  match s.job.attempt with
  | none => s
  | some a =>
    match a.window with
    | none => s
    | some w =>
      if s.job.now < w.start + w.frames then s
      else
        let s := if w.ofAbort || (s.sealSt.decision.map fun d => d.1).getD true then s.resetStale else s
        s.applyDecision a s.job.now

/-! ## What else a tick does -/

/-- The module went Unlocked: frame-abort, no further frame, ABORT; it acquires again (R36). -/
def State.takeUnlock (s : State) : State :=
  if !s.mer.unlockDue then s
  else
    let s := (s.note .meridianUnlock srcModule).onMer fun m => { m with unlockDue := false, lock := 1 }
    match s.job.attempt with
    | some _ => (s.abortRunning s.job.now).stopNow
    | none => s

/-- The frame-abort that a BIND_HASH difference brings (R39). Which step it names when none runs is the model's choice: the next, else the
last latched (log entry 112). -/
def State.takeSplit (s : State) : State :=
  if !s.job.splitDue then s
  else
    let s := s.onJob fun j => { j with splitDue := false }
    match s.job.attempt with
    | some _ => s.abortRunning s.job.now
    | none => s.sendAbort ((s.job.nextLive.map fun d => d.step).getD s.regs.latchedStep) s.job.now

/-- The alert floor at a tick: it is left after its hold, and entered for a cap that contour 3 does not meet (R336, R347). -/
def State.takeFloor (s : State) : State :=
  let s := if s.power.floor && s.power.holdDone then s.leaveFloor else s
  if s.power.unmetDue then (s.onPower fun p => { p with unmetDue := false, capUnmet := true }).alert .capUnmet else s

/-- Background tasks that have work waiting, with their allowances in W, in the order of R344. -/
def State.backgroundTasks (s : State) : List (Nat × Nat) :=
  let overdue := (List.range 8).filter fun h => !(s.hub h).overdue.isEmpty
  let due := (List.range 8).filter fun h => (s.hub h).overdue.isEmpty && !(s.hub h).due.isEmpty
  let sweeps := (List.range 8).filter fun h => (s.hub h).sweeping
  [(1, 3 * overdue.length), (2, if s.sealSt.copyOut.isSome then 60 else 0), (3, 3 * due.length),
    (4, if (s.nextTest s.integ.testTurn).isSome then 25 else 0), (5, 10 * sweeps.length)].filter fun e => e.2 ≠ 0

/-- The frame in progress of the running plan is a headroom frame. -/
def State.isHeadroom (s : State) : Bool :=
  match s.runningPlan with
  | some (r, v, i) => ((r.headroom.find? fun h => h.1 = v.contour).map fun h => h.2.getD i false).getD false
  | none => false

/-- The frame in progress gives a core of this module work. -/
def State.frameWorks (s : State) : Bool := s.hasWork && s.cores.any fun e => e.2.worked

/-- Clear the frame for background tasks: those that the power leaves room for in a headroom frame, all in a frame without plan work
(R344). -/
def State.clearFrame (s : State) : State :=
  let s := s.onPower fun p => { p with testSpent := false, background := false }
  match s.runningPlan with
  | none => s.onPower fun p => { p with cleared := [1, 2, 3, 4, 5] }
  | some (r, _, _) =>
    if !s.frameWorks then s.onPower fun p => { p with cleared := [1, 2, 3, 4, 5] }
    else if !s.isHeadroom then s.onPower fun p => { p with cleared := [] }
    else
      let (ok, _, late) := s.backgroundTasks.foldl
        (fun (a : List Nat × Nat × Nat) e =>
          if s.priceFits r s.job.contour 100 (a.2.1 + e.2) then (a.1 ++ [e.1], a.2.1 + e.2, a.2.2) else (a.1, a.2.1, a.2.2 + 1))
        (([] : List Nat), 0, 0)
      s.onPower fun p => { p with cleared := ok, deferred := satAdd p.deferred late }

/-- Channels start to retrain at the frame's tick, one on each hub whose engines have no work in it (R199, R201, R344). -/
def State.startRetraining (s : State) : State :=
  s.each ((List.range 8).filter fun h => !s.hubWorks h) fun s h =>
    let s := if s.power.cleared.contains 1 then s.startDue h true else s
    if s.power.cleared.contains 3 && (s.hub h).retraining.isNone && (s.hub h).overdue.isEmpty then s.startDue h false else s

/-- Where a new circuit table takes effect, a slot of the previous one that has not delivered is SLOT_LATE on its link (R44, R282): at the first frame
of an accepted dispatch, also where the frame's overrun keeps the phase from being issued. -/
def State.tableChanged (missed : List Nat) (s : State) : State :=
  if s.job.dispatches.any fun d => !d.done && d.contour.isSome && d.first = s.job.now then s.each missed fun s n => s.slotLate n 1 else s

/-! ## TICK -/

/-- The tick that comes next. -/
def State.tickTime (s : State) (b : Bind) : Nat :=
  if s.job.ticking then s.job.tickAt + b.period else roundUp s.clock.meridian b.period

/-- A frame begins at the tick `m`. -/
def State.newFrame (b : Bind) (m : Nat) (s : State) : State :=
  s.onJob fun j =>
    { j with
      frame := ((m : Int) - b.baseTick) / b.period, tickAt := m, ticking := true, open_ := true, overrunSeen := false, delivered := [] }

def State.takeTick (b : Bind) (e : TickEnv) (s : State) : State :=
  let s := if s.job.open_ then s.takeDeadline b else s
  let m := s.tickTime b
  let s := (s.meridianTo m).pumpSides.learnFrame e
  let missed := s.undeliveredOn [0, 1, 2]
  -- a reset that took the attempt's work after the deadline (R187, R370)
  let s := if s.hasWork && s.cores.any fun e => e.2.broken then s.overrun else s
  let s := s.onCores fun t => t.map fun e => (e.1, { e.2 with worked := false, late := false, closing := none, used := [] })
  let s := s.onHubs (Tab.keep {} fun v => { v with saturated := [] })
  let s := (s.newFrame b m).closeWindow
  if s.job.bind.isNone then s
  else
    let s := s.takeUnlock.takeFloor.cutsDue
    let s := ((s.openWindow b e.unitsSilent).beginFrame).takeSplit
    (((s.tableChanged missed).clearFrame.startRetraining).raiseVolts.onPower fun p => { p with frameClock := p.localContour }).each
      (List.range 8) fun s h => s.serveHub h

def tick (e : TickEnv) (s : State) : State :=
  match s.job.bind with
  | some b => s.takeTick b e
  | none => s

/-- TICK (R38): a deadline not yet taken comes first (log entry 27). -/
def execTick (e : TickEnv) (s : State) : Out := commit s (tick e s)

end Sys2Proof.Machine
end

