-- ==== Sys2Proof/Machine/Elastic.lean ====
section
/-! DEFINITION. The job's layout: GAZETTEER_LOAD (R248, R249, R401), CHART_LOAD (R298 to R301), RESHAPE and its migration (R302 to R304),
insets (R306), and the loss of a module (R305, R307 to R309). -/
namespace Sys2Proof.Machine

/-! ## The gazetteer (R248, R249) -/

/-- The gazetteer in a buffer: none where the buffer does not hold it whole. -/
def parseGazetteer (d : Bytes) : Option Gazetteer :=
  let n := field d 0 4
  if d.length < 64 || (n ≤ 131072 && d.length < 64 + 8 * n) then none
  else
    some
      { jobSize := n, selfRank := field d 4 4, ringM1 := BitVec.ofNat 48 (field d 8 6), line := BitVec.ofNat 6 (field d 14 1)
        selfCoord := BitVec.ofNat 48 (field d 16 6), jobTag := BitVec.ofNat 16 (field d 22 2), epoch := BitVec.ofNat 32 (field d 24 4)
        entries := (chunks 8 n (d.drop 64)).map fun e => if natBit (field e 6 1) 0 then some (BitVec.ofNat 48 (field e 0 6)) else none }

/-- A coordinate lies on the rings. -/
def Rings.holds (r : Rings) (c : BitVec 48) : Bool := allAxes.all fun a => decide (coordAt c a < r.size a)

/-- The ranks break R249: JOB_SIZE, a coordinate outside its ring, or one coordinate twice. -/
def Gazetteer.ranksBad (g : Gazetteer) : Bool :=
  let known := g.entries.filterMap id
  g.jobSize = 0 || 131072 < g.jobSize || decide ((allAxes.map g.rings.size).foldl (fun a n => a * n) 1 < g.jobSize) ||
    !(known.all g.rings.holds) || known.eraseDups.length ≠ known.length

/-- BAD_GAZETTEER (R249). -/
def State.gazetteerBad (s : State) (g : Gazetteer) : Bool :=
  g.ranksBad || g.coord g.selfRank ≠ some g.selfCoord || s.survey.coord ≠ some g.selfCoord

/-- The rank chart of a gazetteer (R401). -/
def rankChart (g : Gazetteer) : Chart :=
  { epoch := if g.epoch = 0 then 1 else g.epoch, jobTag := g.jobTag
    vLog2 := ((List.range 18).find? fun n => decide (g.jobSize ≤ 2 ^ n)).getD 17, spmLog2 := 0, rank := true, ranks := g.entries }

def State.hostGazetteer (data : Bytes) (c : Cmd) (s : State) : State :=
  match parseGazetteer (data.take c.length.toNat) with
  | none => s.finish 3 c 0x011B
  | some g =>
    if s.gazetteerBad g then s.finish 3 c 0x0114
    else
      let s := if s.job.attempt.isSome then s.onTopo fun t => { t with nextGaz := some g }
        else s.onTopo fun t => { t with gaz := some g, nextGaz := none }
      let s := if (s.mbox 3).version = 2 && s.job.bind.isSome && g.jobTag = s.jobTag && s.topo.chart.isNone then
          s.onTopo fun t => { t with chart := some (rankChart g) }
        else s
      s.finish 3 c 0

def gazetteerLoad (c : Cmd) (data : Bytes) (s : State) : State := s.command 3 0x0305 c true (State.hostGazetteer data c)

/-- GAZETTEER_LOAD (R248, R249, R401). -/
def execGazetteerLoad (c : Cmd) (data : Bytes) (s : State) : Out := commit s (gazetteerLoad c data s)

/-! ## The shard chart (R298, R300) -/

/-- The chart in a buffer. -/
def parseChart (d : Bytes) : Chart :=
  { bytes := slice d 0 128, epoch := BitVec.ofNat 32 (field d 0 4), jobTag := BitVec.ofNat 16 (field d 4 2), vLog2 := field d 6 1
    spmLog2 := field d 7 1, group := field d 8 1, stageAxis := field d 9 1, stages := field d 10 1 + 1, inset := field d 12 1
    axes := allAxes.map fun a =>
      { origin := field d (16 + 8 * a) 1, spanLog2 := field d (17 + 8 * a) 1 % 16, fixedMask := BitVec.ofNat 8 (field d (18 + 8 * a) 1)
        fixedValue := BitVec.ofNat 8 (field d (19 + 8 * a) 1) }
    ladder := (List.range (min 17 (field d 11 1))).map fun i => (field d (64 + 2 * i) 1, field d (65 + 2 * i) 1) }

/-- A field of the chart is out of its range; `n` is LADDER as the chart states it. -/
def Chart.fieldsBad (c : Chart) (n : Nat) : Bool :=
  c.epoch = 0 || 17 < c.vLog2 || c.vLog2 < c.spmLog2 || c.group = 0 || 8 < c.group || 5 < c.stageAxis || n ≠ c.vLog2 - c.spmLog2 ||
    2 < c.inset || (c.axes.any fun x => 8 < x.spanLog2) || c.ladder.any fun e => 5 < e.1 || 7 < e.2

/-- An axis breaks R300: its fixed bits, its ladder bits, or its box. -/
def Chart.axisBad (c : Chart) (r : Rings) (a : Nat) : Bool :=
  let x := c.axis a
  let bits := (c.ladder.filter fun e => e.1 = a).map fun e => e.2
  let extent := if a = c.stageAxis then c.stages else (if a = 0 then c.group else 1) * 2 ^ x.spanLog2
  (x.fixedValue &&& ~~~x.fixedMask) ≠ 0 || decide (r.size a < extent) || (r.isLine a && decide (r.size a < x.origin + extent)) ||
    (if a = c.stageAxis then !bits.isEmpty
      else
        bits.eraseDups.length ≠ bits.length ||
          (List.range 8).any fun j => bits.contains j ≠ (decide (j < x.spanLog2) && !x.fixedMask.getLsbD j))

/-- The chart breaks R300 against a gazetteer, its own place apart. -/
def Chart.bad (c : Chart) (n : Nat) (g : Gazetteer) : Bool :=
  let size := c.group * c.stages * 2 ^ c.ladder.length
  c.fieldsBad n || (1 < c.group && c.stageAxis = 0) ||
    ((c.ladder.any fun e => e.1 = 0) && !([1, 2, 4, 8].contains c.group)) || allAxes.any (c.axisBad g.rings) || g.jobSize ≠ size ||
    (c.hosts g).length ≠ size

/-- A job of more than 4,096 modules needs Elastic Chart (R8, R300). -/
def State.tooLarge (s : State) (g : Gazetteer) : Bool := decide (4096 < g.jobSize) && !s.licensed 2

def State.hostChart (data : Bytes) (c : Cmd) (s : State) : State :=
  let x := parseChart data
  match s.topo.gaz.filter fun g => g.jobTag = x.jobTag with
  | none => s.finish 3 c 0x020A
  | some g =>
    let same := s.topo.chart.any fun y => !y.rank && y.epoch = x.epoch && y.bytes = x.bytes
    if same then s.finish 3 c 0
    else if s.job.dispatched || (s.job.bind.isSome && s.topo.chart.any fun y => y.rank) then s.finish 3 c 0x020B
    else if x.inset ≠ 0 || x.bad (field data 11 1) g || (x.place g g.selfCoord).isNone then s.finish 3 c 0x0116
    else if s.tooLarge g then s.finish 3 c 0x0502
    else (s.onTopo fun t => { t with chart := some x, fresh := true, insets := [] }).finish 3 c 0

def chartLoad (c : Cmd) (data : Bytes) (s : State) : State := s.command 3 0x0306 c true (State.hostChart data c)

/-- CHART_LOAD (R298 to R301). -/
def execChartLoad (c : Cmd) (data : Bytes) (s : State) : Out := commit s (chartLoad c data s)

/-! ## Insets (R306) -/

/-- The inset chart of inset `k`: the own shards keep their local shard slots, the partner's follow (R306, R308, log entry 54). -/
def Chart.without (c : Chart) (k : Nat) : Option Chart :=
  match c.ladder with
  | [] => none
  | (a, j) :: rest =>
    let n := 2 ^ c.spmLog2
    let bit : Byte := BitVec.ofNat 8 (2 ^ j)
    let part := fun (off : Nat) => (List.range n).map fun i => off * n + c.slots.getD i i
    some
      { c with
        bytes := [], epoch := c.epoch + 1, spmLog2 := c.spmLog2 + 1, ladder := rest, inset := k + 1
        axes := c.axes.modify a fun x =>
          { x with fixedMask := x.fixedMask ||| bit, fixedValue := if k = 0 then x.fixedValue ||| bit else x.fixedValue &&& ~~~bit }
        slots := part (1 - k) ++ part k }

/-- A gazetteer that comes with RESHAPE or INSET_STAGE is one for every module: the module finds itself by its coordinate (log entry
53). -/
def State.ownGazetteer (s : State) (g : Gazetteer) : Gazetteer :=
  { g with selfCoord := s.ownCoord, selfRank := (g.rankAt s.ownCoord).getD g.selfRank }

/-- The files after an inset's gazetteer, each a length and a file on a 64-byte boundary; with the offset after the last. -/
def insetFiles (d : Bytes) : Nat → Nat → Option (List Bytes × Nat)
  | 0, at_ => some ([], at_)
  | n + 1, at_ =>
    let len := field d at_ 4
    if d.length < at_ + 4 + len then none
    else (insetFiles d n (roundUp (at_ + 4 + len) 64)).map fun r => (slice d (at_ + 4) len :: r.1, r.2)

/-- The state as the loader sees it under an inset's layout. -/
def State.under (s : State) (x : Chart) (g : Gazetteer) : State := s.onTopo fun t => { t with chart := some x, gaz := some g }

/-- Verify the plan for resident slot `slot` against the inset chart. -/
def State.insetPlan (s : State) (x : Chart) (file : Bytes) (slot : Nat) : Chk Plan := do
  let p ← parsePlan file
  need (!p.scoreboard) 0x0202
  need (x.suits p) 0x0206
  match s.roleOf p s.ownCoord with
  | none => refuse 0x0206
  | some role =>
    s.verifyPlan p role slot
    return p

/-- The plans of an inset, all of one HETCH level, which is that of the resident plans that stay: R10 wants one level in a binding, and R295 and R306
name no status where it differs; 0x0204 is the model's choice (log entry 148). -/
def State.insetPlans (s : State) (x : Chart) : Nat → List Bytes → Chk (List Plan)
  | _, [] => return []
  | slot, f :: t => do
    let p ← s.insetPlan x f slot
    let l ← s.insetPlans x (slot + 1) t
    need (l.all fun q => q.level = p.level) 0x0204
    need ((List.range 4).all fun k => k ≤ slot + l.length || (s.resident k).all fun r => r.plan.level = p.level) 0x0204
    return p :: l

/-- Bytes that an inset takes in its arena. -/
def Inset.size (i : Inset) : Nat :=
  roundUp (64 + 8 * i.gaz.jobSize) 64 + (i.files.map fun f => roundUp (4 + f.length) 64).sum

/-- The inset that INSET_STAGE describes. -/
def State.insetOf (s : State) (k switchFrames planCount : Nat) (d : Bytes) : Chk Inset :=
  match s.topo.chart.bind fun x => x.without k, parseGazetteer d with
  | none, _ => refuse 0x0116
  | _, none => refuse 0x011B
  | some x, some g =>
    let g := s.ownGazetteer g
    if g.ranksBad then refuse 0x0114
    else if x.bad (x.vLog2 - x.spmLog2) g then refuse 0x0116
    else
      match insetFiles d planCount (roundUp (64 + 8 * g.jobSize) 64) with
      | none => refuse 0x011B
      | some (files, _) => do
        let plans ← (s.under x g).insetPlans x 0 files
        return { k, switchFrames, gaz := g, chart := x, files, plans }

/-- The insets fit their arena. -/
def State.insetsFit (s : State) (l : List Inset) : Bool :=
  match s.job.arenas.inset with
  | some (_, n) => decide ((l.map Inset.size).sum ≤ n)
  | none => false

def State.hostInset (switchFrames : BitVec 16) (planCount : Byte) (data : Bytes) (c : Cmd) (s : State) : State :=
  let k := c.mboxByte.toNat
  if !s.licensed 2 then s.finish 3 c 0x0502
  else if s.job.bind.isNone then s.finish 3 c 0x0207
  else if 1 < k || switchFrames = 0 || 4 < planCount.toNat then s.finish 3 c 0x011C
  else if s.topo.window.isSome then s.finish 3 c 0x020E
  else
    match s.insetOf k switchFrames.toNat planCount.toNat (data.take c.length.toNat) with
    | .error e => s.finish 3 c e.status e.detail
    | .ok i =>
      let l := i :: s.topo.insets.filter fun o => o.k ≠ k
      if s.insetsFit l then (s.onTopo fun t => { t with insets := l }).finish 3 c 0 else s.finish 3 c 0x0305

def insetStage (c : Cmd) (switchFrames : BitVec 16) (planCount : Byte) (data : Bytes) (s : State) : State :=
  s.command 3 0x0307 c true (State.hostInset switchFrames planCount data c)

/-- INSET_STAGE (R306, R310). -/
def execInsetStage (c : Cmd) (switchFrames : BitVec 16) (planCount : Byte) (data : Bytes) (s : State) : Out :=
  commit s (insetStage c switchFrames planCount data s)

/-! ## RESHAPE (R302 to R304) -/

/-- The new chart follows the chart in force: its EPOCH is the next, and V, g, p and the stage axis stay. -/
def State.follows (s : State) (x : Chart) : Bool :=
  match s.topo.chart with
  | none => true
  | some c =>
    !c.rank && x.epoch = c.epoch + 1 && x.vLog2 = c.vLog2 && x.group = c.group && x.stages = c.stages && x.stageAxis = c.stageAxis

def State.hostReshape (afterStep windowFrames : Word) (data : Bytes) (c : Cmd) (s : State) : State :=
  let d := data.take c.length.toNat
  if !s.licensed 2 then s.finish 3 c 0x0502
  else if s.job.bind.isNone then s.finish 3 c 0x0207
  else if s.job.suspended then s.finish 3 c 0x020C
  else if s.topo.reshape.isSome then s.finish 3 c 0x020E
  else
    match parseGazetteer (d.drop 128) with
    | none => s.finish 3 c 0x011B
    | some g =>
      let g := s.ownGazetteer g
      let x := parseChart d
      let r : Reshape := { tag := c.tag, chart := x, gaz := g, afterStep, frames := windowFrames.toNat }
      if g.ranksBad then s.finish 3 c 0x0114
      else if x.inset ≠ 0 || x.jobTag ≠ g.jobTag || x.bad (field d 11 1) g || !s.follows x then s.finish 3 c 0x0116
      else if windowFrames.toNat < s.framesNeeded r then s.finish 3 c 0x0117
      else s.onTopo fun t => { t with reshape := some r, insets := [] }

def reshape (c : Cmd) (afterStep windowFrames : Word) (data : Bytes) (s : State) : State :=
  s.command 3 0x0308 c true (State.hostReshape afterStep windowFrames data c)

/-- RESHAPE (R302 to R304): accepted, it completes when the migration ends. -/
def execReshape (c : Cmd) (afterStep windowFrames : Word) (data : Bytes) (s : State) : Out :=
  commit s (reshape c afterStep windowFrames data s)

/-- The pending RESHAPE ends with a status. -/
def State.endReshape (status : Nat) (s : State) : State :=
  match s.topo.reshape with
  | none => s
  | some r =>
    let s := s.onTopo fun t => { t with reshape := none, migOut := [], migIn := [] }
    (s.onMem (Tab.clear (stagedKey 0) (2 * stagedKey 0))).complete 3 r.tag status

/-- Roll back, unless RELEASE of the last commit is held or a rollback runs (R326). -/
def State.rollbackLost (s : State) : State := if s.released || (s.hub 0).rollback then s else s.rollback

/-- Abandon the migration: the old chart stays, nothing is lost, and the job suspends (R303, R309). -/
def State.abandonReshape (s : State) : State := (s.endReshape 0x020C).suspendLost.endUnmet

/-- The migration window is open. -/
def State.migrating (s : State) : Bool := s.topo.reshape.any fun r => r.opened.isSome

/-- The commits from the newest back to the last that was no skip. -/
def sinceLast : List Commit → List Commit
  | [] => []
  | k :: t => if k.skipped then k :: sinceLast t else [k]

/-- No copy of the layout that ended is left, and no commit before the last, whose digests belong to that layout (log entry 133). -/
def Seal.newLayout (v : Seal) : Seal :=
  { v with
    commits := sinceLast v.commits
    copyOut := none, copyQueued := none, copyIn := none, copySent := 0, buddyEpoch := 0, buddyPrev := 0, doneWaiting := [], ownDone := false
    flipped := [] }

/-- Bring a granule of 4 KiB into area 0 of directory key `k`, as its only version. -/
def State.adopt (src k : Nat) (s : State) : State :=
  let s := (s.copyBytes src (areaKey k 0) 4096).onDir (Tab.set {} k {})
  if s.cartoucheBound then
    let d := sha256 (s.bytesAt (areaKey k 0) 4096)
    s.onSec fun v => { v with digests := Tab.set [] k d v.digests }
  else s

/-- A directory key with another slot field. -/
def reslot (slot k : Nat) : Nat :=
  let (t, _, v, b, g) := dirParts k
  dirKey t slot v b g

/-- Where the current version of a granule of shard `v` lies at the end of the window: in an old slot of this module, among what it
received, or in its buddy area. `k` is any key of the granule. -/
def State.shardSource (s : State) (v k : Nat) : Option Nat :=
  let own := match s.topo.chart, s.place with
    | some c, some p => (c.slotOf p v).map fun i => s.currentKey (reslot i k)
    | _, _ => none
  let buddy := match s.topo.chart, s.topo.gaz with
    | some c, some g =>
      if s.sealSt.buddyEpoch ≠ s.lastEpoch then none
      else
        ((c.buddyOf g g.selfCoord).bind fun x => c.place g x).bind fun p =>
          (c.slotOf p v).map fun i => s.currentKey (buddyKey (reslot i k))
    | _, _ => none
  if own.isSome then own else if s.topo.migIn.contains (reslot v k) then some (stagedKey (reslot v k)) else buddy

/-- The granules of the new layout: source, staging key and directory key; none where one is missing. -/
def State.newGranules (s : State) (r : Reshape) (p : ChartPlace) : Option (List (Nat × Nat × Nat)) :=
  ((List.range (2 ^ r.chart.spmLog2)).flatMap fun i =>
    (s.shardGranules i).map fun k =>
      let v := r.chart.shardAt p i
      (s.shardSource v k).map fun src => (src, stagedKey (reslot v k), k)).mapM id

/-- The new chart and gazetteer take effect, with the shards where they now belong. -/
def State.takeLayout (r : Reshape) (l : List (Nat × Nat × Nat)) (s : State) : State :=
  let s := s.each l fun s e => if e.1 = e.2.1 then s else s.copyBytes e.1 e.2.1 4096
  let s := s.each l fun s e => s.adopt e.2.1 e.2.2
  let s := (s.onSealSt Seal.newLayout).onTopo fun t => { t with chart := some r.chart, gaz := some r.gaz, fresh := true, insets := [] }
  ((s.note .reshapeDone srcModule).endReshape 0).beginFrame.clearFrame

def migrationWindowEnd (s : State) : State :=
  match s.topo.reshape with
  | none => s
  | some r =>
    match r.opened with
    | none => s
    | some o =>
      if s.job.frame < (o + r.frames : Nat) then s
      else if !s.topo.notices.isEmpty then s.rollbackLost.abandonReshape
      else
        match r.chart.place r.gaz s.ownCoord with
        | none => (s.endReshape 0x020D).leaveJob 0x020D
        | some p =>
          match s.newGranules r p with
          | none => s.abandonReshape
          | some l => s.takeLayout r l

/-- MIGRATION_WINDOW_END (R302, R303). -/
def execMigrationWindowEnd (s : State) : Out := commit s (migrationWindowEnd s)

/-! ## Losing a module (R305, R307) -/

def peerLost (jobTag : BitVec 16) (coord : BitVec 48) (frame : BitVec 64) (s : State) : State :=
  if s.job.bind.isNone || jobTag ≠ s.jobTag then s
  else
    let s := (s.holdLost coord frame.toNat).dropChildren
    -- a loss before RELEASE brings the rollback of R326
    if s.migrating then s.rollbackLost.abandonReshape else s

/-- PEER_LOST (R255, R303, R305). -/
def execPeerLost (jobTag : BitVec 16) (coord : BitVec 48) (frame : BitVec 64) (s : State) : Out := commit s (peerLost jobTag coord frame s)

def reshapeProposal (jobTag : BitVec 16) (coord : BitVec 48) (s : State) : State :=
  match s.job.bind, s.topo.window with
  | some b, some w =>
    if jobTag = b.jobTag && !s.topo.proposals.contains coord && decide ((s.clock.meridian : Int) < b.deadline (w + b.horizon)) then
      s.onTopo fun t => { t with proposals := coord :: t.proposals }
    else s
  | _, _ => s

/-- RESHAPE_PROPOSAL (R307): it counts before the window's deadline. -/
def execReshapeProposal (jobTag : BitVec 16) (coord : BitVec 48) (s : State) : Out := commit s (reshapeProposal jobTag coord s)

/-- A coordinate is one of the job's. -/
def State.inJob (s : State) (c : BitVec 48) : Bool := s.topo.chart.isNone || (s.placeOf c).isSome

/-- The lost set of the window that opened at frame `w` (R307). -/
def State.lostSet (s : State) (w : Nat) : List (BitVec 48) :=
  (((s.topo.notices.filter fun n => n.2 ≤ w).map fun n => n.1).eraseDups).filter fun c =>
    !s.topo.proposals.contains c && c ≠ s.ownCoord && s.inJob c

/-- The window closes: the notices that counted are spent (R307), and the status block names the lost set (R297). -/
def State.closeReshape (w : Nat) (lost : List (BitVec 48)) (s : State) : State :=
  s.onTopo fun t =>
    { t with
      window := none, proposals := [], notices := t.notices.filter fun n => decide (w < n.2)
      lostFirst := match lost with
        | [] => 0
        | c :: r => r.foldl (fun a b => if b < a then b else a) c
      lostCount := BitVec.ofNat 8 (min 255 lost.length) }

/-! ## The inset switch (R308) -/

/-- A circuit of a plan passes a lost coordinate on some hop, from any module of the layout in force. -/
def State.passes (s : State) (p : Plan) (lost : List (BitVec 48)) : Bool :=
  match s.topo.chart, s.topo.gaz with
  | some x, some g =>
    (x.hosts g).any fun h =>
      match s.roleOf p h.1 with
      | none => false
      | some role =>
        p.variants.any fun v => (List.range v.frames).any fun f => p.circuits.any fun y =>
          match p.sends v f role y with
          | [] => false
          | o :: _ =>
            match s.sendBearing p y o h.1 with
            | none => false
            | some b => (List.range y.hops).any fun i => (g.rings.walk b (i + 1) h.1).any lost.contains
  | _, _ => false

/-- The epoch of the commit that the hubs hold, or go back to. -/
def State.keptEpoch (s : State) : Nat := if (s.hub 0).rollback then (s.hub 0).prevCommit else s.lastEpoch

/-- The half that a lost set leaves the job with: bit s of every lost v0 is one `k`. -/
def State.lostHalf (s : State) (lost : List (BitVec 48)) : Option Nat :=
  match s.topo.chart with
  | none => none
  | some x =>
    match lost.map fun c => (s.placeOf c).map fun p => p.v0 / 2 ^ x.spmLog2 % 2 with
    | some k :: t => if t.all fun e => e = some k then some k else none
    | _ => none

/-- A granule of the partner's shards lies poisoned in the buddy area (R328). -/
def State.buddyPoisoned (s : State) : Bool :=
  (List.range s.shardSlots).any fun slot => (s.shardGranules slot).any fun k => s.runPoisoned (s.currentKey (buddyKey k)) 4096

/-- The inset to switch to, or the number of the first condition of R308 that fails (log entry 23). -/
def State.switchable (s : State) (lost : List (BitVec 48)) : Sum Nat Inset :=
  if !s.licensed 2 then .inl 1
  else
    match s.lostHalf lost with
    | none => .inl 2
    | some k =>
      match s.topo.insets.find? fun i => i.k = k with
      | none => .inl 3
      | some i =>
        if i.plans.any fun p => (s.under i.chart i.gaz).passes p lost then .inl 4
        else if (s.topo.switched && s.topo.fresh) || s.keptEpoch = 0 || s.sealSt.buddyEpoch ≠ s.keptEpoch || s.buddyPoisoned then .inl 5
        else .inr i

/-- A plan of the inset takes its slot, and its translation begins. -/
def State.stagePlan (s : State) (e : Plan × Nat) : State :=
  match s.roleOf e.1 s.ownCoord with
  | none => s
  | some role =>
    let s := match s.resident e.2 with
      | some old => s.dropLines old
      | none => s
    let r := s.translated e.1 role
    let slot : PlanSlot := { loading := some { resident := r, tag := 0, mailbox := 1, output := [], buffer := 0 } }
    s.onJob fun j => { j with slots := Tab.set {} e.2 slot j.slots }

/-- Switch to an inset: its layout, its plans, and the partner's shards from the buddy areas. After a rollback the commands of the steps in `undone`,
the aborted one and the one rolled back, end with detail bit 2 (R308, R310). -/
def State.switchTo (i : Inset) (rolled : Bool) (undone : List Word) (s : State) : State :=
  if (i.chart.place i.gaz s.ownCoord).isNone then s.leaveJob 0x020D
  else
    let n := s.shardSlots
    let s := s.each (List.range n) fun s slot =>
      s.each (s.shardGranules slot) fun s k =>
        let src := s.currentKey (buddyKey k)
        (s.adopt src (reslot (n + slot) k)).onDir (Tab.set {} (buddyKey k) {})
    let step := s.job.nextLive.map fun d => d.step
    let s := s.onTopo fun t =>
      { t with
        chart := some i.chart, gaz := some i.gaz, insets := [], fresh := true, switched := true
        switchStep := if rolled then none else step, switchAt := some (s.job.now + i.switchFrames) }
    let s := (s.onSealSt Seal.newLayout).each i.plans.zipIdx State.stagePlan
    let s := s.note .reshapeDone srcModule
    if rolled then s.endDispatches (fun d => undone.contains d.step) 0 4 else s

/-- A loss that no switch absorbs (R309). -/
def State.noSwitch (why : Nat) (s : State) : State :=
  ((s.note .reshapeBlocked srcModule why).endReshape 0x020C).suspendLost.endUnmet

/-- The retry begins with the frame in progress. -/
def State.retryNow (s : State) : State := ((s.restart s.job.now s.job.contour false).beginFrame).clearFrame

def reshapeWindowEnd (s : State) : State :=
  match s.job.bind, s.topo.window with
  | some b, some w =>
    if s.job.frame < (w + b.horizon + 1 : Nat) then s
    else
      let lost := s.lostSet w
      let s := s.closeReshape w lost
      if lost.isEmpty then s.retryNow
      else
        let rolled := !s.released
        let aborted := s.job.nextLive.map fun d => d.step
        let s := s.rollbackLost
        let undone := [aborted, s.job.nextLive.map fun d => d.step].filterMap id
        match s.switchable lost with
        | .inl why => s.noSwitch why
        | .inr i => s.switchTo i rolled undone
  | _, _ => s

/-- RESHAPE_WINDOW_END (R307 to R309, R326). -/
def execReshapeWindowEnd (s : State) : Out := commit s (reshapeWindowEnd s)

def insetRetryStart (s : State) : State :=
  match s.topo.switchAt with
  | none => s
  | some f => if s.job.frame < f then s else (s.onTopo fun t => { t with switchAt := none }).retryNow

/-- INSET_RETRY_START (R308): a plan still in translation brings frame-abort. -/
def execInsetRetryStart (s : State) : Out := commit s (insetRetryStart s)

end Sys2Proof.Machine
end

