-- ==== Sys2Proof/Machine/Meridian.lean ====
section
/-! DEFINITION. The meridian counter between modules: exchanges, steering, lock states and steps (R28, R31, R35, R36, R221). -/
namespace Sys2Proof.Machine

/-- A link that carries data in its bonded port (R229). -/
def State.carries (s : State) (n : Nat) : Bool :=
  (s.link n).state == .up && (List.range 12).any fun q => (s.bondedLinks q).contains n

/-- Offset of a completed exchange in 0.01 ns, its timestamps being in 1/32 fabric cycle (0.02 ns): R31's half of the difference. -/
def exchangeOffset (t1 t2 t3 t4 : Int) : Int := (t2 - t1) - (t4 - t3)

/-- One-way delay of a completed exchange in 0.01 ns. -/
def exchangeDelay (t1 t2 t3 t4 : Int) : Int := (t2 - t1) + (t4 - t3)

/-- The links to the upstream set that carry data now. -/
def State.upstreamLinks (s : State) : List Nat := (List.range 24).filter fun n => s.mer.upstream.getLsbD n && s.carries n

/-- The mean, to the nearest whole unit, halves upwards. -/
def meanOf (l : List Int) : Int := (2 * l.sum + l.length) / (2 * l.length)

/-- The offsets last measured on the given links, in 0.01 ns. -/
def Meridian.heard (m : Meridian) (links : List Nat) : List Int := links.filterMap fun n => (Tab.get none n m.offsets).map fun e => e.1

/-- Which neighbour a link leads to: the public key of its far module's legend (R285); a link without one stands for itself. -/
def State.farModule (s : State) (n : Nat) : Bytes :=
  match (s.link n).legend with
  | some d => slice d 36 64
  | none => [BitVec.ofNat 8 n]

/-- The offset of each neighbour of the upstream set that has answered an exchange: the mean over its links (R31). -/
def State.upstreamOffsets (s : State) : List Int :=
  let links := s.upstreamLinks
  ((links.map s.farModule).eraseDups.map fun k => s.mer.heard (links.filter fun n => s.farModule n = k)).filterMap fun l =>
    if l.isEmpty then none else some (meanOf l)

/-- The mean offset of the upstream set, in 0.01 ns (R31). -/
def State.upstreamOffset (s : State) : Int := meanOf s.upstreamOffsets

/-- The mean offset in whole ns. -/
def State.upstreamNs (s : State) : Int := (2 * s.upstreamOffset + 100) / 200

/-- The counter goes Unlocked (R35): a bound module acts at its next tick (R36), any other acquires at once. It runs on at the learned
rate. -/
def State.unlock (s : State) : State :=
  let s := s.onMer fun m =>
    { m with
      lock := 0, unlocks := satInc m.unlocks, good := 0, bad := 0, round := [], holdoverAt := none, stepped := false, trim := 0
      trimEnd := 0 }
  if s.job.bind.isSome then s.onMer fun m => { m with unlockDue := true }
  else (s.note .meridianUnlock srcModule).onMer fun m => { m with lock := 1 }

/-- The lock state after a round of exchanges with the upstream set (R35): eight rounds within ±5 ns lock, from Holdover too; three
beyond ±50 ns unlock. -/
def State.judgeLock (s : State) : State :=
  let off := s.upstreamOffset.natAbs
  let s := s.onMer fun m => { m with good := if off ≤ 500 then m.good + 1 else 0, bad := if 5000 < off then m.bad + 1 else 0 }
  if (s.mer.lock = 2 || s.mer.lock = 3) && 3 ≤ s.mer.bad then s.unlock
  else if (s.mer.lock = 1 || s.mer.lock = 3) && 8 ≤ s.mer.good then
    (s.onMer fun m => { m with lock := 2, holdoverAt := none }).tryReady
  else s

/-- ±100 ppm in units of 0.01 ppm (R35). -/
def slewLimit (r : Int) : Int := max (-10000) (min 10000 r)

/-- Steer toward the upstream mean (R35). The offset in 0.01 ns is the rate in 0.01 ppm that corrects it within 1 ms. The law is the
model's (log entry 45): a round's offset joins the learned rate while the limit is not reached, and the rate in force is the learned one
plus the correction, for 1 ms. -/
def State.steer (s : State) : State :=
  if s.mer.lock = 0 then s
  else
    let o := s.upstreamOffset
    s.onMer fun m =>
      let want := m.learned + 2 * o
      let learned := if want = slewLimit want then m.learned + o else m.learned
      { m with learned, trim := slewLimit (learned + o), trimEnd := s.clock.uptime + 1000000 }

/-- A round of exchanges has ended: steer, then judge. -/
def State.endRound (s : State) : State := (s.onMer fun m => { m with round := [] }).steer.judgeLock

/-- An exchange with an upstream link: a round ends when each of them has been heard, or one is heard again (R35). -/
def State.hearUpstream (n : Nat) (o : Int) (s : State) : State :=
  let s := if s.mer.round.contains n then s.endRound else s
  let s := s.onMer fun m =>
    { m with
      offsets := Tab.set none n (some (o, s.clock.uptime)) m.offsets, round := n :: m.round, lastExchange := s.clock.uptime }
  if s.upstreamLinks.all s.mer.round.contains then s.endRound else s

def meridianExchange (link : Fin 24) (s : State) : State :=
  let n := link.val
  if s.carries n then
    let (t2, t3) := Tab.get (0, 0) n s.mer.stamps
    s.sendSide n (BitVec.ofNat 128 (2 + unsigned 48 t2 * 2 ^ 8 + unsigned 48 t3 * 2 ^ 56))
  else s

/-- MERIDIAN_EXCHANGE (R31, R218). -/
def execMeridianExchange (link : Fin 24) (s : State) : Out := commit s (meridianExchange link s)

/-- What an exchange measures: the delay of the link, LINK_TOO_LONG (R221), and the offset (R31). -/
def meridianExchangeReceived (link : Fin 24) (t1 t2 t3 t4 : Int) (s : State) : State :=
  let n := link.val
  if s.carries n then
    let delay := (exchangeDelay t1 t2 t3 t4).toNat
    let o := exchangeOffset t1 t2 t3 t4
    let s := s.onMer fun m => { m with stamps := Tab.set (0, 0) n (t2, t3) m.stamps }
    let long := decide (70000 < delay)
    let news := long && !(s.link n).tooLong
    let s := s.onLink n fun l => { l with delay := BitVec.ofNat 16 (min 0xFFFF ((delay + 32) / 64)), tooLong := long }
    let s := if news then s.note .linkTooLong (srcLink n) else s
    if !s.mer.root && s.mer.upstream.getLsbD n then s.hearUpstream n o
    else s.onMer fun m => { m with offsets := Tab.set none n (some (o, s.clock.uptime)) m.offsets }
  else s

/-- MERIDIAN_EXCHANGE_RECEIVED: offset, delay, steering and lock (R31, R35, R45, R221). -/
def execMeridianExchangeReceived (link : Fin 24) (t1 t2 t3 t4 : Int) (s : State) : Out :=
  commit s (meridianExchangeReceived link t1 t2 t3 t4 s)

def meridianHoldover (s : State) : State :=
  if s.mer.lock = 2 && !s.mer.root then
    let s := s.advanceTo (s.mer.lastExchange + 10000000)
    (s.onMer fun m => { m with lock := 3, holdoverAt := some s.clock.uptime, good := 0, round := [] }).note .meridianHoldover srcModule
  else s

/-- MERIDIAN_HOLDOVER: 10 ms without an upstream exchange; the counter runs on at the learned rate (R35). -/
def execMeridianHoldover (s : State) : Out := commit s (meridianHoldover s)

def meridianUnlock (s : State) : State :=
  match s.mer.holdoverAt with
  | some t => if s.mer.lock = 3 then (s.advanceTo (t + 20000000)).unlock else s
  | none => s

/-- MERIDIAN_UNLOCK: Holdover has lasted 20 ms (R35, R36); offsets beyond ±50 ns unlock at the exchange that shows them. -/
def execMeridianUnlock (s : State) : Out := commit s (meridianUnlock s)

def meridianStep (s : State) : State :=
  if s.mer.lock = 1 && !s.mer.root && !s.mer.stepped && !s.upstreamOffsets.isEmpty && s.job.attempt.isNone then
    let d := s.upstreamNs
    let s := s.onClock fun c => { c with meridian := ((c.meridian : Int) + d).toNat }
    let s := (s.onMer fun m => { m with stepped := true, offsets := [], round := [], good := 0, bad := 0 }).onJob fun j =>
      { j with ticking := false, open_ := false }
    s.note .meridianStep srcModule (unsigned 64 d)
  else s

/-- MERIDIAN_STEP: Acquiring, the counter is stepped once to the upstream mean, with no step running (R28, R35, R36). -/
def execMeridianStep (s : State) : Out := commit s (meridianStep s)

def meridianSlewEnd (s : State) : State :=
  match s.mer.slew with
  | none => s
  | some (_, began, ms) => (s.advanceTo (began + ms * 1000000)).onMer fun m => { m with slew := none }

/-- MERIDIAN_SLEW_END: the commanded slew has lasted its duration (R402). -/
def execMeridianSlewEnd (s : State) : Out := commit s (meridianSlewEnd s)

end Sys2Proof.Machine
end

