-- ==== Sys2Proof/Machine/Mgmt.lean ====
section
/-! DEFINITION. The management interfaces (R436 to R440): the 1000BASE-T port, the I3C block, the PMBus mirror and JTAG, and
the refresh of the telemetry mirror (R391). They are served from start-up step 3 on. -/
namespace Sys2Proof.Machine

/-! ## The management port (R436, R437) -/

/-- The request is answered: at most 1,000 in one second of uptime (R437). -/
def State.answer (reply : Bytes) (s : State) : State :=
  let sec := s.clock.uptime / 1000000000
  let n := if s.mgmt.second = sec then s.mgmt.answered else 0
  if !s.dev.standbyOn || 1000 ≤ n then s
  else (s.onMgmt fun m => { m with second := sec, answered := n + 1 }).emit (.mgmtReply reply)

/-- The reply to a LOG request. -/
def State.logReply (s : State) (firstSeq : Word) (count : Nat) : Bytes :=
  let entries := (s.log.from_ firstSeq).take count
  let first := match entries with
    | e :: _ => e.seq.toNat
    | [] => firstSeq.toNat
  layout 16 [fld 0 1 0x81, fld 1 1 entries.length, fld 4 4 first] ++ entries.flatMap Entry.bytes

/-- A count outside 1 to 32 makes no request of R437. -/
def mgmtLogRequest (firstSeq : Word) (count : Byte) (s : State) : State :=
  if count.toNat = 0 || 32 < count.toNat then s else s.answer (s.logReply firstSeq count.toNat)

/-- MGMT_LOG_REQUEST (R437). -/
def execMgmtLogRequest (firstSeq : Word) (count : Byte) (s : State) : Out := commit s (mgmtLogRequest firstSeq count s)

/-- The reply to an IDENT request. -/
def State.identReply (s : State) : Bytes :=
  layout 80
    [fld 0 1 0x82, fld 16 16 s.fuses.serial.toNat, fld 32 32 s.fuses.identityFp.toNat, fld 64 1 s.dev.state.code,
     fld 72 8 s.clock.uptime]

def mgmtIdentRequest (s : State) : State := s.answer s.identReply

/-- MGMT_IDENT_REQUEST (R437). -/
def execMgmtIdentRequest (s : State) : Out := commit s (mgmtIdentRequest s)

/-- The Ethernet port carries frames: the management port from start-up step 3, a gateway port while its link is up. -/
def State.ethUp (s : State) : EthPort → Bool
  | .management => s.dev.standbyOn
  | .gateway g => s.gwState g.val == 2

/-- Bytes of an echo request's frame on a gateway port: MAC header, VLAN tag, IP, ICMP and FCS. -/
def Gateway.echoFrame (x : Gateway) (payload : Bytes) : Nat :=
  14 + (if x.vlan = 0 then 0 else 4) + (if x.ipv6 then 40 else 20) + 8 + payload.length + 4

/-- The MAC of a gateway port carries frames of up to 9,216 bytes (R232). -/
def State.frameFits (s : State) (payload : Bytes) : EthPort → Bool
  | .management => true
  | .gateway g => decide ((s.gw g.val).echoFrame payload ≤ 9216)

/-- Count a request that came in on a gateway port and, where it has one, its reply (R236). -/
def State.countEth (port : EthPort) (bytes : Gateway → Nat) (answered : Bool) (s : State) : State :=
  match port with
  | .management => s
  | .gateway g =>
    s.onGw g.val fun x =>
      { x with rxBytes := satAdd x.rxBytes (bytes x), txBytes := if answered then satAdd x.txBytes (bytes x) else x.txBytes }

/-- Bytes of an echo request's or reply's IP datagram (log entry 151). -/
def Gateway.echoBytes (x : Gateway) (payload : Bytes) : Nat := (if x.ipv6 then 40 else 20) + 8 + payload.length

/-- Bytes of an ARP packet, or of a neighbour solicitation's or advertisement's datagram with its link-layer address option (log entry 151). -/
def Gateway.neighbourBytes (x : Gateway) : Nat := if x.ipv6 then 72 else 28

def icmpEchoRequest (port : EthPort) (payload : Bytes) (s : State) : State :=
  if s.ethUp port && s.frameFits payload port then (s.countEth port (fun x => x.echoBytes payload) true).emit (.echoReply port payload) else s

/-- ICMP_ECHO_REQUEST (R233, R436). -/
def execIcmpEchoRequest (port : EthPort) (payload : Bytes) (s : State) : Out := commit s (icmpEchoRequest port payload s)

/-- The IPv4-mapped form of an IPv4 address (R438), most significant byte first. -/
def mapped4 (a : BitVec 32) : BitVec 128 := BitVec.ofNat 128 (0xFFFF * 2 ^ 32 + a.toNat)

/-- The EUI-64 link-local address of a MAC address (log entry 33). -/
def linkLocal (mac : BitVec 48) : BitVec 128 :=
  let m := mac.toNat
  BitVec.ofNat 128 (0xFE80 * 2 ^ 112 + (m / 2 ^ 24 ^^^ 0x020000) * 2 ^ 40 + 0xFFFE * 2 ^ 24 + m % 2 ^ 24)

/-- The port holds address `a`. -/
def State.holdsAddress (s : State) (a : BitVec 128) : EthPort → Bool
  | .management =>
    a = linkLocal s.fuses.mgmtMac ||
      (match s.mgmt.applied.mode.toNat with
        | 0 => s.mgmt.dhcp.any fun d => a = mapped4 d
        | 1 | 2 => a = s.mgmt.applied.address
        | _ => false)
  | .gateway g => a ≠ 0 && a = (s.gw g.val).address

def neighbourDiscovery (port : EthPort) (target : BitVec 128) (s : State) : State :=
  if !s.ethUp port then s
  else if s.holdsAddress target port then (s.countEth port Gateway.neighbourBytes true).emit (.neighbourReply port target)
  else s.countEth port Gateway.neighbourBytes false

/-- NEIGHBOUR_DISCOVERY: ARP and IPv6 neighbour discovery (R233, R436). -/
def execNeighbourDiscovery (port : EthPort) (target : BitVec 128) (s : State) : Out :=
  commit s (neighbourDiscovery port target s)

def dhcpReply (address : BitVec 32) (s : State) : State :=
  if s.dev.standbyOn && s.mgmt.applied.mode = 0 then s.onMgmt fun m => { m with dhcp := some address } else s

/-- DHCP_REPLY (R436). -/
def execDhcpReply (address : BitVec 32) (s : State) : Out := commit s (dhcpReply address s)

/-! ## I3C (R438) -/

/-- APPLY's work. -/
def State.applyMgmt (s : State) : State :=
  let p := s.mgmt.pending
  if (p.mode = 1 || p.mode = 2) && p.address = 0 then s.note .mgmtConfig srcControl 1
  else
    (s.onMgmt fun m => { m with applied := p, dhcp := if p.mode = 0 then m.dhcp else none }).note .mgmtConfig srcControl

def mgmtApply (s : State) : State := if s.dev.standbyOn then s.applyMgmt else s

/-- MGMT_APPLY (R438). -/
def execMgmtApply (s : State) : Out := commit s (mgmtApply s)

def i3cSetdasa (addr : BitVec 7) (s : State) : State :=
  if s.dev.standbyOn then s.onMgmt fun m => { m with dynAddr := some addr } else s

/-- I3C_SETDASA (R438). -/
def execI3cSetdasa (addr : BitVec 7) (s : State) : Out := commit s (i3cSetdasa addr s)

/-- A target that has a dynamic address takes no part in ENTDAA (log entry 33). -/
def i3cEntdaa (addr : BitVec 7) (s : State) : State :=
  if s.dev.standbyOn && s.mgmt.dynAddr.isNone then s.onMgmt fun m => { m with dynAddr := some addr } else s

/-- I3C_ENTDAA (R438). -/
def execI3cEntdaa (addr : BitVec 7) (s : State) : Out := commit s (i3cEntdaa addr s)

/-- An address field: 16 bytes, most significant first. -/
def addressBytes (a : BitVec 128) : Bytes := (leBytes 16 a.toNat).reverse

/-- The settings 0x10 to 0x4F as bytes. -/
def MgmtSettings.bytes (m : MgmtSettings) : Bytes :=
  layout 16
    [fld 0 1 m.mode.toNat, fld 1 1 m.plen.toNat, fld 2 2 m.vlan.toNat, fld 4 2 m.collectorPort.toNat,
     fld 6 2 m.logPort.toNat] ++
    addressBytes m.address ++ addressBytes m.gateway ++ addressBytes m.collector

/-- The settings that 64 bytes from 0x10 on give; reserved bits are dropped. -/
def MgmtSettings.ofBytes (b : Bytes) : MgmtSettings :=
  { mode := BitVec.ofNat 2 (field b 0 1), plen := BitVec.ofNat 8 (field b 1 1), vlan := BitVec.ofNat 12 (field b 2 2)
    collectorPort := BitVec.ofNat 16 (field b 4 2), logPort := BitVec.ofNat 16 (field b 6 2)
    address := BitVec.ofNat 128 (beNat (slice b 16 16)), gateway := BitVec.ofNat 128 (beNat (slice b 32 16))
    collector := BitVec.ofNat 128 (beNat (slice b 48 16)) }

/-- The I3C block as the board controller reads it. -/
def State.i3cBytes (s : State) : Bytes :=
  layout 16
    [fld 0 1 (bits [(0, s.dev.state.code), (4, bit1 s.dev.degraded), (5, bit1 s.dev.firmware)]), fld 1 1 s.dev.heldCause.toNat,
     fld 2 2 (temp16 s.power.hottest.1), fld 4 4 s.log.lastEvent.toNat, fld 8 4 s.log.lastSeq.toNat,
     fld 12 4 (2 * s.mgmt.ibiEn.toNat)] ++
    s.mgmt.pending.bytes ++ layout 16 [] ++ leBytes 32 s.fuses.identityFp.toNat

/-- Write one byte of the block; read-only bytes keep their values. -/
def State.i3cByte (off : Nat) (b : Byte) (s : State) : State :=
  if off = 0x0C || off = 0x0D then
    let w := field (splice (leBytes 4 (2 * s.mgmt.ibiEn.toNat)) (off - 0x0C) [b]) 0 2
    s.onMgmt fun m => { m with ibiEn := BitVec.ofNat 8 (w / 2) }
  else if 0x10 ≤ off && off < 0x50 then
    s.onMgmt fun m => { m with pending := MgmtSettings.ofBytes (splice m.pending.bytes (off - 0x10) [b]) }
  else if off = 0x50 && b.getLsbD 0 then s.applyMgmt
  else s

def i3cBlockWrite (offset : Nat) (data : Bytes) (s : State) : State :=
  if s.dev.standbyOn then s.each data.zipIdx fun s e => s.i3cByte (offset + e.2) e.1 else s

/-- I3C_BLOCK_WRITE (R438). -/
def execI3cBlockWrite (offset : Nat) (data : Bytes) (s : State) : Out := commit s (i3cBlockWrite offset data s)

/-! ## The PMBus mirror (R439) -/

/-- Answer a read. -/
def State.smbusAnswer (v : Nat) (s : State) : State := if s.dev.standbyOn then s.emit (.smbus v) else s

/-- Refuse a write: not acknowledged, CML set. -/
def State.smbusRefuse (s : State) : State :=
  if s.dev.standbyOn then (s.onMgmt fun m => { m with cml := true }).emit .smbusNack else s

def pmbusPage (page : Byte) (s : State) : State :=
  if 40 < page.toNat then s.smbusRefuse
  else if s.dev.standbyOn then s.onMgmt fun m => { m with page } else s

/-- PMBUS_PAGE (R439). -/
def execPmbusPage (page : Byte) (s : State) : Out := commit s (pmbusPage page s)

/-- VOUT_MODE: LINEAR16 with exponent −12, five bits two's complement (log entry 32). -/
def voutMode (s : State) : State := s.smbusAnswer 0x14

/-- VOUT_MODE (R439). -/
def execVoutMode (s : State) : Out := commit s (voutMode s)

/-- The selected rail is powered (R21, R23): the control rail with the standby domain, every other with the main one; for the LNK rails with the main
domain off, where the spec is silent, this is the model's choice (log entry 152). -/
def State.railOn (s : State) : Bool := if s.mgmt.page = 38 then s.dev.standbyOn else s.dev.mainOn

/-- The OFF bit is bit 6 and the CML bit bit 1 (log entry 32). -/
def State.statusBits (s : State) : Nat := bits [(1, bit1 s.mgmt.cml), (6, bit1 !s.railOn)]

def statusWord (s : State) : State := s.smbusAnswer s.statusBits

/-- STATUS_WORD (R439). -/
def execStatusWord (s : State) : Out := commit s (statusWord s)

/-- The nearest integer to `a / b`, halves upwards. -/
def nearest (a : Int) (b : Nat) : Int := (2 * a + b) / (2 * b)

/-- The mantissa of `milli` / 1000 with exponent `e` − 16. -/
def mantissa11 (milli : Int) (e : Nat) : Int := nearest (milli * 2 ^ 16) (1000 * 2 ^ e)

/-- LINEAR11: the smallest exponent whose mantissa fits in 11 signed bits (log entry 32). -/
def linear11 (milli : Int) : Nat :=
  let fits := fun e => decide (-1024 ≤ mantissa11 milli e) && decide (mantissa11 milli e < 1024)
  let e := ((List.range 32).find? fits).getD 31
  unsigned 5 ((e : Int) - 16) * 2 ^ 11 + unsigned 11 (mantissa11 milli e)

/-- LINEAR16 with exponent −12. -/
def linear16 (milli : Nat) : Nat := min 0xFFFF (nearest (milli * 4096) 1000).toNat

def readVin (millivolts : Nat) (s : State) : State := s.smbusAnswer (linear11 millivolts)

/-- READ_VIN (R439). -/
def execReadVin (millivolts : Nat) (s : State) : Out := commit s (readVin millivolts s)

/-- A reading of the selected rail; 0 where it is not powered. -/
def State.rail (s : State) (v : Nat) : Nat := if s.railOn then v else 0

/-- The voltage of the selected rail in mV (R23, R333): the compute rails as the power controller has set them, the others at their fixed
value; the stacks' supplies, whose value the manual does not give, as measured. -/
def State.railMillivolts (s : State) (measured : Nat) : Nat :=
  let p := s.mgmt.page.toNat
  s.rail (if p < 16 then s.power.cmpVolts else if p < 24 then 750 else if p < 32 then measured else if p < 39 then 750 else 3300)

def readVout (millivolts : Nat) (s : State) : State := s.smbusAnswer (linear16 (s.railMillivolts millivolts))

/-- READ_VOUT (R439). -/
def execReadVout (millivolts : Nat) (s : State) : Out := commit s (readVout millivolts s)

def readIout (milliamps : Nat) (s : State) : State := s.smbusAnswer (linear11 (s.rail milliamps))

/-- READ_IOUT (R439). -/
def execReadIout (milliamps : Nat) (s : State) : Out := commit s (readIout milliamps s)

def readTemperature1 (milliCelsius : Int) (s : State) : State := s.smbusAnswer (linear11 milliCelsius)

/-- READ_TEMPERATURE_1 (R439). -/
def execReadTemperature1 (milliCelsius : Int) (s : State) : Out := commit s (readTemperature1 milliCelsius s)

def readPout (milliwatts : Nat) (s : State) : State := s.smbusAnswer (linear11 (s.rail milliwatts))

/-- READ_POUT (R439). -/
def execReadPout (milliwatts : Nat) (s : State) : Out := commit s (readPout milliwatts s)

/-- PMBus 1.3 in both parts of the specification (log entry 32). -/
def pmbusRevision (s : State) : State := s.smbusAnswer 0x33

/-- PMBUS_REVISION (R439). -/
def execPmbusRevision (s : State) : Out := commit s (pmbusRevision s)

/-- A write to PAGE is the row PMBUS_PAGE. -/
def pmbusWriteRefused (command : Byte) (s : State) : State := if command = 0 then s else s.smbusRefuse

/-- PMBUS_WRITE_REFUSED (R439). -/
def execPmbusWriteRefused (command : Byte) (s : State) : Out := commit s (pmbusWriteRefused command s)

/-! ## JTAG (R440) -/

/-- Load a JTAG instruction: 0 BYPASS, 1 IDCODE, 2 SAMPLE/PRELOAD, 3 EXTEST. -/
def State.jtagLoad (n : BitVec 2) (s : State) : State := s.onMgmt fun m => { m with jtag := n, tlr := false }

def bypass (s : State) : State := if s.dev.vin48 then s.jtagLoad 0 else s

/-- BYPASS (R440). -/
def execBypass (s : State) : Out := commit s (bypass s)

def idcode (s : State) : State := if s.dev.vin48 then (s.jtagLoad 1).emit (.jtagOut 0x17404C4F) else s

/-- IDCODE (R440). -/
def execIdcode (s : State) : Out := commit s (idcode s)

def samplePreload (pins cells : Word) (s : State) : State :=
  if s.dev.vin48 then
    ((s.jtagLoad 2).onMgmt fun m => { m with capture := pins, cells }).emit (.jtagOut pins)
  else s

/-- SAMPLE_PRELOAD (R440). -/
def execSamplePreload (pins cells : Word) (s : State) : Out := commit s (samplePreload pins cells s)

def extest (s : State) : State :=
  if !s.dev.vin48 then s
  else if s.dev.state = .held && !s.dev.firmware then (s.jtagLoad 3).emit (.pins s.mgmt.cells)
  else s.jtagLoad 0

/-- EXTEST (R440, R442). -/
def execExtest (s : State) : Out := commit s (extest s)

/-- Test-Logic-Reset selects IDCODE, as IEEE 1149.1 has it (log entry 21). -/
def jtagTestLogicReset (s : State) : State := if s.dev.vin48 then s.onMgmt fun m => { m with jtag := 1, tlr := true } else s

/-- JTAG_TEST_LOGIC_RESET (R440). -/
def execJtagTestLogicReset (s : State) : Out := commit s (jtagTestLogicReset s)

/-! ## The telemetry mirror (R391) -/

/-- What a refresh adds to counters: the energy since the last power refresh (R334), the uncorrectable codewords of the gateway ports (R236). -/
def State.countMeasured (b : Block) (m : Measured) (s : State) : State :=
  match b with
  | .power => s.onClock fun c => { c with energy := c.energy + m.energyUj }
  | .gateway => s.each m.fec fun s e => s.onGw e.1.val fun x => { x with fecUncorrected := satAdd x.fecUncorrected e.2.toNat }
  | _ => s

def telemetryRefresh (block : Block) (m : Measured) (s : State) : State :=
  if !s.dev.standbyOn then s
  else
    let s := s.countMeasured block m
    let r := s.renderBlock block m
    s.mirrorWrite r.1 r.2

/-- TELEMETRY_REFRESH (R37, R206, R226, R231, R236, R264, R297, R330, R350, R379, R391). -/
def execTelemetryRefresh (block : Block) (m : Measured) (s : State) : Out := commit s (telemetryRefresh block m s)

end Sys2Proof.Machine
end

