-- ==== Sys2Proof/Machine/Slots.lean ====
section
/-! DEFINITION. Circuit slots on the wire: SLOT_TRANSMIT, SLOT_FORWARD and SLOT_ARRIVAL (R45, R240 to R247), with the slots in which the
firmware carries buddy copies (R322, R325) and migrations (R303), whose layout is log entry 51. -/
namespace Sys2Proof.Machine

/-! ## Firmware slots -/

/-- DST_CORE of a firmware slot: no plan's consumer. -/
def firmwareCore : BitVec 7 := 127

/-- Kinds of firmware slot. -/
def kindBuddy : Nat := 1
def kindMove : Nat := 2

/-- Granules that a slot of 1 MiB carries. -/
def slotGranules : Nat := 254

/-- What heads a firmware slot's payload: destination, kind, commit epoch, transmit start in fabric cycles after a tick, and the granules of the
whole copy (log entry 51). -/
structure SlotHead where
  dest : BitVec 48
  kind : Nat
  epoch : Nat
  start : Nat
  total : Nat
  deriving DecidableEq, Repr

/-- A firmware slot's payload: its head in 32 bytes, then each granule's key and bytes. -/
def firmwarePayload (h : SlotHead) (l : List (Nat × Bytes)) : Bytes :=
  leBytes 6 h.dest.toNat ++ leBytes 2 h.kind ++ leBytes 8 h.epoch ++ leBytes 8 h.start ++ leBytes 8 h.total ++
    l.flatMap fun e => leBytes 16 e.1 ++ slice e.2 0 4096

def slotHead (d : Bytes) : SlotHead :=
  { dest := BitVec.ofNat 48 (field d 0 6), kind := field d 6 2, epoch := field d 8 8, start := field d 16 8, total := field d 24 8 }

/-- The granules of a payload. -/
def firmwareGranules (d : Bytes) : List (Nat × Bytes) :=
  ((chunks 4112 (slotGranules + 1) (d.drop 32)).filter fun e => e.length = 4112).map fun e => (field e 0 16, e.drop 16)

/-- Fabric cycles of a firmware slot on a link of `w` units (R240). -/
def firmwareLen (payload w : Nat) : Nat := ceilDiv (payload + 32) (64 * max 1 w)

/-- The link of bearing `b` that is free, guards and all, for a slot at `start` cycles after the tick that must end in the work
window (R159, R242, R244, R322). -/
def State.freeLink (s : State) (b start payload : Nat) : Option Nat :=
  match s.job.bind with
  | none => none
  | some bd =>
    ((s.linksAt b).find? fun e =>
      let len := firmwareLen payload e.2
      let l := s.link e.1
      l.state == .up && decide (32 ≤ start) && decide (max l.busyUntil l.guardUntil + 64 * 32 ≤ s.slotTime start) &&
        decide (64 * (start + len + 32) ≤ 100 * (bd.period - bd.guardNs)) &&
        (s.spansOn b e.1).all fun y => decide (y.1 + y.2 + 64 ≤ start) || decide (start + len + 64 ≤ y.1)).map
      fun e => e.1

/-- Some request to HBM for these runs is not served now (R200, R205). -/
def State.notServed (keys : List (Nat × Nat)) (s : State) : Bool := s.unserved keys || !(detoured s (s.askReads keys)).isEmpty

/-- Send granules in a firmware slot, each by the key it has at the receiver and its key here; `sent` records that they are sent. They are sent later
where a channel takes no requests now or one of them is poisoned. -/
def State.sendGranules (h : SlotHead) (b : Nat) (l : List (Nat × Nat)) (last : Bool) (sent : State → State) (s : State) : State :=
  let keys := l.map fun e => (s.currentKey e.2, 4096)
  let bad := (l.map fun e => s.currentKey e.2).filter fun k => s.runPoisoned k 4096
  if s.notServed keys then s
  else if !bad.isEmpty then s.each bad fun s k => s.meetPoison k
  else
    let payload := firmwarePayload h (l.map fun e => (e.1, s.bytesAt (s.currentKey e.2) 4096))
    match s.freeLink b h.start payload.length with
    | none => s
    | some n =>
      let at_ := s.slotTime h.start
      let x := sealSlot
        { circuit := 255, postQ := 0, postN := 0, dstCore := firmwareCore, lastSlot := last, attempt := s.attemptTag
          frameLo := BitVec.ofNat 16 s.job.now, jobTag := s.jobTag, payload, crc := 0 }
      sent ((s.meridianTo (ceilDiv at_ 100)).sendSlot [n] at_ x)

/-- The next slot of the running migration (R303). -/
def State.sendMove (start : Nat) (s : State) : State :=
  match s.topo.migOut, s.topo.gaz with
  | (dest, _) :: _, some g =>
    match g.rings.nextBearing g.selfCoord dest with
    | none => s
    | some b =>
      let part := (s.topo.migOut.takeWhile fun e => e.1 = dest).take slotGranules
      let rest := s.topo.migOut.drop part.length
      let keys := part.map fun e => (reslot (s.shardOf (dirParts e.2).2.1) e.2, e.2)
      s.sendGranules ⟨dest, kindMove, 0, start, 0⟩ b keys rest.isEmpty fun s => s.onTopo fun t => { t with migOut := rest }
  | _, _ => s

/-- The next slot of the buddy copy (R322); after its last slot, until BUDDY_ACK, the copy is sent again (R325). -/
def State.sendBuddy (start : Nat) (s : State) : State :=
  match s.sealSt.copyOut, s.buddy, s.topo.gaz with
  | some (epoch, keys), some (b, hops), some g =>
    match g.rings.walk b hops g.selfCoord with
    | none => s
    | some dest =>
      let from_ := if s.sealSt.copySent < keys.length then s.sealSt.copySent else 0
      let part := (keys.drop from_).take slotGranules
      let upTo := from_ + part.length
      s.sendGranules ⟨dest, kindBuddy, epoch, start, keys.length⟩ b (part.map fun k => (k, k)) (decide (keys.length ≤ upTo)) fun s =>
        (s.onSealSt fun v => { v with copySent := upTo }).onPower fun p => { p with background := true }
  | _, _, _ => s

/-! ## SLOT_TRANSMIT -/

/-- Slot `window` of a circuit that this module sources in the frame in progress, and its links. -/
def State.ownSpan (s : State) (circuit window : Nat) : Option (Resident × Span × List Nat) :=
  match s.runningPlan with
  | none => none
  | some (r, v, f) =>
    ((List.range 12).findSome? fun b =>
      ((s.placedOut r.plan v f b).getD []).find? fun y => y.1.circuit.id = circuit && y.1.window = window && y.1.hop = 1).map
      fun y => (r, y.1, y.2)

def slotTransmit (circuit : Byte) (window : Nat) (s : State) : State :=
  match s.ownSpan circuit.toNat window with
  | some (r, x, links) => s.transmitSpan r x links
  | none =>
    if s.job.bind.isNone then s
    else if s.migrating then s.sendMove window
    else if s.power.cleared.contains 2 then s.sendBuddy window
    else s

/-- SLOT_TRANSMIT (R240 to R242): a slot of the running plan, else a firmware slot that starts `window` cycles after the tick. -/
def execSlotTransmit (circuit : Byte) (window : Nat) (s : State) : Out := commit s (slotTransmit circuit window s)

/-! ## SLOT_FORWARD -/

/-- The bearing on which a firmware slot that came along bearing `b` goes on: a buddy copy straight on, a migration on its deterministic route (R303,
R322). -/
def State.slotBearing (s : State) (b : Nat) (h : SlotHead) : Option Nat :=
  if h.kind = kindBuddy then some b else s.topo.gaz.bind fun g => g.rings.nextBearing g.selfCoord h.dest

/-- A firmware slot leaves at its start in a frame after the one it came in, of those that carry firmware slots, on a link that is free then (R243,
R304, R322; log entry 51). -/
def State.forwardFirmware (b from_ : Nat) (x : Slot) (left : State → State) (s : State) : State :=
  let h := slotHead x.payload
  let at_ := s.slotTime h.start
  if at_ < from_ || !(s.migrating || s.power.cleared.contains 2) then s
  else
    match (s.slotBearing b h).bind fun n => s.freeLink n h.start x.payload.length with
    | none => s
    | some n =>
      let s := left ((s.meridianTo (ceilDiv at_ 100)).sendSlot [n] at_ x)
      if h.kind = kindBuddy then s.onPower fun p => { p with background := true } else s

def slotForward (link : Fin 24) (circuit : Byte) (s : State) : State :=
  let mine := fun (h : HeldSlot) => h.link = link.val && h.forward.isSome && h.slot.circuit = circuit
  let left := fun (s : State) => s.onRouter fun r => { r with slotBuf := dropFirst mine r.slotBuf }
  match s.router.slotBuf.find? mine with
  | none => s
  | some h =>
    match h.forward with
    | none => s
    | some (out, at_) =>
      if h.slot.dstCore = firmwareCore then
        match s.portOfBonded link.val with
        | none => s
        | some q => s.forwardFirmware (opposite (s.port q).bearing.toNat) at_ h.slot left
      else left ((s.meridianTo (ceilDiv at_ 100)).sendSlot out at_ h.slot)

/-- SLOT_FORWARD (R243): the slot leaves as it is, at its scheduled start. -/
def execSlotForward (link : Fin 24) (circuit : Byte) (s : State) : Out := commit s (slotForward link circuit s)

/-! ## SLOT_ARRIVAL -/

/-- How a firmware slot's arrival is judged: its window opens at its start, as its head states it, plus the link's delay (R45, R243). -/
def State.judgeFirmware (s : State) (link at_ : Nat) (x : Slot) : SlotTiming :=
  judgeArrival at_ (s.slotTime ((slotHead x.payload).start + (s.link link).delay.toNat)) (firmwareLen x.payload.length (s.link link).units)

/-- A firmware slot on its way waits for its start in a later frame (R243, R304). -/
def State.passOn (link : Nat) (x : Slot) (s : State) : State :=
  match s.job.bind with
  | some b => s.holdSlot { link, slot := x, forward := some ([], 100 * (s.job.tickAt + b.period)) }
  | none => s

/-- Granules of the buddy's sheets, each a fresh write into the area that does not hold the last complete copy (R322). -/
def State.landBuddy (h : SlotHead) (l : List (Nat × Bytes)) (s : State) : State :=
  if h.epoch = s.sealSt.buddyEpoch then s
  else
    let s := s.each l fun s e =>
      let k := buddyKey e.1
      let cur := (s.resolve k).1
      (s.putBytes (areaKey k (!cur).toNat) e.2).onDir
        (Tab.modify {} k fun d => { d with frs := true, epoch := if d.prv then d.epoch else BitVec.ofNat 24 (s.hub (s.dirHub k)).attempt })
    s.onSealSt fun v =>
      let old := match v.copyIn with
        | some (c, keys) => if c = h.epoch then keys else []
        | none => []
      { v with copyIn := some (h.epoch, joinKeys old (l.map fun e => buddyKey e.1)), copyInTotal := h.total }

/-- Granules of a migration wait for the window's end (R303). -/
def State.landMove (l : List (Nat × Bytes)) (s : State) : State :=
  (s.each l fun s e => s.putBytes (stagedKey e.1) e.2).onTopo fun t => { t with migIn := joinKeys t.migIn (l.map fun e => e.1) }

/-- A firmware slot that is no good here: a migration is abandoned, a buddy copy's is sent again (R303, R325). -/
def State.spoiltSlot (link : Nat) (h : SlotHead) (s : State) : State :=
  if s.migrating then s.abandonReshape else if h.kind = kindBuddy then s.buddyResend link else s

def State.firmwareSlot (link at_ : Nat) (x : Slot) (s : State) : State :=
  let h := slotHead x.payload
  let t := s.judgeFirmware link at_ x
  let ok := slotOk x
  let s :=
    if !ok then s.note .slotTrailerBad (srcLink link)
    else
      match t with
      | .onTime => s
      | .slip => (s.onJob fun j => { j with slips := satInc j.slips }).onLink link fun l => { l with slips := satInc l.slips }
      | .early => s.slotLate link 0
      | .late => s.slotLate link 1
  if h.dest ≠ s.ownCoord then s.passOn link x
  else if !ok || t = .early || t = .late then s.spoiltSlot link h
  else if h.kind = kindBuddy then s.landBuddy h (firmwareGranules x.payload)
  else if h.kind = kindMove && s.migrating then s.landMove (firmwareGranules x.payload)
  else s

/-- A slot of a plan: its trailer, its job and attempt, then its time (R45, R241, R247, R265). -/
def State.planArrival (link b at_ : Nat) (x : Slot) (s : State) : State :=
  let spot := s.expected link b x.circuit.toNat at_
  if !slotOk x then
    let s := s.note .slotTrailerBad (srcLink link)
    match spot with
    | some (y, _) => if y.hop < y.circuit.hops then s.transit link y x b else s
    | none => s
  else
    match spot with
    | some (y, opens) => s.planSlot link b y opens at_ x
    | none => s.slotLate link 1

def slotArrival (link : Fin 24) (at_ : Nat) (x : Slot) (s : State) : State :=
  match s.portOfBonded link.val with
  | none => s
  | some q =>
    if !s.carries link.val then s
    else
      let b := opposite (s.port q).bearing.toNat
      let s := s.meridianTo (at_ / 100)
      if slotOk x && (s.job.bind.isNone || x.jobTag ≠ s.jobTag || x.attempt ≠ s.attemptTag) then
        s.onRouter fun r => { r with stale := satInc r.stale }
      else if x.dstCore = firmwareCore then s.firmwareSlot link.val at_ x
      else s.planArrival link.val b at_ x

/-- SLOT_ARRIVAL (R45, R144, R241, R243, R247, R303, R322, R325). -/
def execSlotArrival (link : Fin 24) (at_ : Nat) (x : Slot) (s : State) : Out := commit s (slotArrival link at_ x s)

end Sys2Proof.Machine
end

