-- ==== Sys2Proof/Machine/Dispatch.lean ====
section
/-! DEFINITION. One arm per command: its meaning, or its rejection by name. -/
namespace Sys2Proof.Machine

def exec (i : Instr) (s : State) : Host.Outcome State Fault Refusal :=
  match i with
  | .powerApplied => Sys2Proof.Machine.execPowerApplied s
  | .standbyRegulation ok => Sys2Proof.Machine.execStandbyRegulation ok s
  | .inputLoss => Sys2Proof.Machine.execInputLoss s
  | .inputOvervoltage => Sys2Proof.Machine.execInputOvervoltage s
  | .overvoltageRecovery => Sys2Proof.Machine.execOvervoltageRecovery s
  | .alertFloor cause => Sys2Proof.Machine.execAlertFloor cause s
  | .floorHoldEnd => Sys2Proof.Machine.execFloorHoldEnd s
  | .powerOverCap milliwatts => Sys2Proof.Machine.execPowerOverCap milliwatts s
  | .modReset lowNs => Sys2Proof.Machine.execModReset lowNs s
  | .controlMismatch => Sys2Proof.Machine.execControlMismatch s
  | .controlWatchdog => Sys2Proof.Machine.execControlWatchdog s
  | .thermalTrip die => Sys2Proof.Machine.execThermalTrip die s
  | .dieTemperatureReading die temp => Sys2Proof.Machine.execDieTemperatureReading die temp s
  | .coolantOutlet temp => Sys2Proof.Machine.execCoolantOutlet temp s
  | .stackTemperatureReading stack temp => Sys2Proof.Machine.execStackTemperatureReading stack temp s
  | .mainDomainPowered ok testFailed => Sys2Proof.Machine.execMainDomainPowered ok testFailed s
  | .hbmTrainingDone failed => Sys2Proof.Machine.execHbmTrainingDone failed s
  | .linkTrainingEnd => Sys2Proof.Machine.execLinkTrainingEnd s
  | .startStepSlow => Sys2Proof.Machine.execStartStepSlow s
  | .cofinTrainingTimer => Sys2Proof.Machine.execCofinTrainingTimer s
  | .cofinUp gen => Sys2Proof.Machine.execCofinUp gen s
  | .cofinDown => Sys2Proof.Machine.execCofinDown s
  | .registerWrite offset size value => Sys2Proof.Machine.execRegisterWrite offset size value s
  | .doorbell m tail => Sys2Proof.Machine.execDoorbell m tail s
  | .cmpHeadWrite m head => Sys2Proof.Machine.execCmpHeadWrite m head s
  | .mailboxEnable m irqEn => Sys2Proof.Machine.execMailboxEnable m irqEn s
  | .mailboxReset m => Sys2Proof.Machine.execMailboxReset m s
  | .eventPendingClear mask => Sys2Proof.Machine.execEventPendingClear mask s
  | .commandFetch m d readOk => Sys2Proof.Machine.execCommandFetch m d readOk s
  | .completionIrqDelay m => Sys2Proof.Machine.execCompletionIrqDelay m s
  | .commandTimeout m tag => Sys2Proof.Machine.execCommandTimeout m tag s
  | .dumpUnitUnreachable unit => Sys2Proof.Machine.execDumpUnitUnreachable unit s
  | .dumpDone => Sys2Proof.Machine.execDumpDone s
  | .dumpHoldTimeout => Sys2Proof.Machine.execDumpHoldTimeout s
  | .dumpingResetHoldExpiry => Sys2Proof.Machine.execDumpingResetHoldExpiry s
  | .coreResetTimeout core => Sys2Proof.Machine.execCoreResetTimeout core s
  | .eventsCoalesced => Sys2Proof.Machine.execEventsCoalesced s
  | .status c => Sys2Proof.Machine.execStatus c s
  | .reset c target => Sys2Proof.Machine.execReset c target s
  | .logFetch c firstSeq => Sys2Proof.Machine.execLogFetch c firstSeq s
  | .logClear c => Sys2Proof.Machine.execLogClear c s
  | .dumpFetch c offset => Sys2Proof.Machine.execDumpFetch c offset s
  | .dumpDiscard c => Sys2Proof.Machine.execDumpDiscard c s
  | .faultPolicy c code source w n => Sys2Proof.Machine.execFaultPolicy c code source w n s
  | .fwLoad c image => Sys2Proof.Machine.execFwLoad c image s
  | .configLoad c record => Sys2Proof.Machine.execConfigLoad c record s
  | .meridianSet c value => Sys2Proof.Machine.execMeridianSet c value s
  | .meridianSlew c rate durationMs => Sys2Proof.Machine.execMeridianSlew c rate durationMs s
  | .standby c => Sys2Proof.Machine.execStandby c s
  | .wake c => Sys2Proof.Machine.execWake c s
  | .cancel c tag => Sys2Proof.Machine.execCancel c tag s
  | .jobBind c p => Sys2Proof.Machine.execJobBind c p s
  | .jobUnbind c => Sys2Proof.Machine.execJobUnbind c s
  | .bindingEnd => Sys2Proof.Machine.execBindingEnd s
  | .planLoad c fileLen buffer => Sys2Proof.Machine.execPlanLoad c fileLen buffer s
  | .planEvict c => Sys2Proof.Machine.execPlanEvict c s
  | .planDispatch c frame step phaseSeq => Sys2Proof.Machine.execPlanDispatch c frame step phaseSeq s
  | .memoryLayout c rs => Sys2Proof.Machine.execMemoryLayout c rs s
  | .arenaSet c space hub bytes => Sys2Proof.Machine.execArenaSet c space hub bytes s
  | .tensorRegister c p => Sys2Proof.Machine.execTensorRegister c p s
  | .tensorUnregister c tensor => Sys2Proof.Machine.execTensorUnregister c tensor s
  | .write c addr data upset => Sys2Proof.Machine.execWrite c addr data upset s
  | .read c addr buddy upset => Sys2Proof.Machine.execRead c addr buddy upset s
  | .gwPort c p => Sys2Proof.Machine.execGwPort c p s
  | .gwTunnelAdd c p => Sys2Proof.Machine.execGwTunnelAdd c p s
  | .gwTunnelRemove c p => Sys2Proof.Machine.execGwTunnelRemove c p s
  | .gwQpCreate c p => Sys2Proof.Machine.execGwQpCreate c p s
  | .gwQpReady c p => Sys2Proof.Machine.execGwQpReady c p s
  | .gwQpDestroy c p => Sys2Proof.Machine.execGwQpDestroy c p s
  | .portConfig c data => Sys2Proof.Machine.execPortConfig c data s
  | .quiesce c mask => Sys2Proof.Machine.execQuiesce c mask s
  | .survey c => Sys2Proof.Machine.execSurvey c s
  | .legendFetch c => Sys2Proof.Machine.execLegendFetch c s
  | .gazetteerLoad c data => Sys2Proof.Machine.execGazetteerLoad c data s
  | .chartLoad c data => Sys2Proof.Machine.execChartLoad c data s
  | .insetStage c switchFrames planCount data => Sys2Proof.Machine.execInsetStage c switchFrames planCount data s
  | .reshape c afterStep windowFrames data => Sys2Proof.Machine.execReshape c afterStep windowFrames data s
  | .licenceInstall c data => Sys2Proof.Machine.execLicenceInstall c data s
  | .licenceList c => Sys2Proof.Machine.execLicenceList c s
  | .identityCert c => Sys2Proof.Machine.execIdentityCert c s
  | .attest c nonce => Sys2Proof.Machine.execAttest c nonce s
  | .cartoucheFetch c step manifest => Sys2Proof.Machine.execCartoucheFetch c step manifest s
  | .powerConfig c cap flags hyst holdUs => Sys2Proof.Machine.execPowerConfig c cap flags hyst holdUs s
  | .telemetrySnapshot c => Sys2Proof.Machine.execTelemetrySnapshot c s
  | .dump c => Sys2Proof.Machine.execDump c s
  | .dumpRegion c hub => Sys2Proof.Machine.execDumpRegion c hub s
  | .scoreboardRun c fileLen buffer => Sys2Proof.Machine.execScoreboardRun c fileLen buffer s
  | .fieldTest c core => Sys2Proof.Machine.execFieldTest c core s
  | .coreInspect c core => Sys2Proof.Machine.execCoreInspect c core s
  | .mgmtLogRequest firstSeq count => Sys2Proof.Machine.execMgmtLogRequest firstSeq count s
  | .mgmtIdentRequest => Sys2Proof.Machine.execMgmtIdentRequest s
  | .icmpEchoRequest port payload => Sys2Proof.Machine.execIcmpEchoRequest port payload s
  | .mgmtApply => Sys2Proof.Machine.execMgmtApply s
  | .i3cSetdasa addr => Sys2Proof.Machine.execI3cSetdasa addr s
  | .i3cEntdaa addr => Sys2Proof.Machine.execI3cEntdaa addr s
  | .pmbusPage page => Sys2Proof.Machine.execPmbusPage page s
  | .voutMode => Sys2Proof.Machine.execVoutMode s
  | .statusWord => Sys2Proof.Machine.execStatusWord s
  | .readVin millivolts => Sys2Proof.Machine.execReadVin millivolts s
  | .readVout millivolts => Sys2Proof.Machine.execReadVout millivolts s
  | .readIout milliamps => Sys2Proof.Machine.execReadIout milliamps s
  | .readTemperature1 milliCelsius => Sys2Proof.Machine.execReadTemperature1 milliCelsius s
  | .readPout milliwatts => Sys2Proof.Machine.execReadPout milliwatts s
  | .pmbusRevision => Sys2Proof.Machine.execPmbusRevision s
  | .pmbusWriteRefused command => Sys2Proof.Machine.execPmbusWriteRefused command s
  | .bypass => Sys2Proof.Machine.execBypass s
  | .idcode => Sys2Proof.Machine.execIdcode s
  | .samplePreload pins cells => Sys2Proof.Machine.execSamplePreload pins cells s
  | .extest => Sys2Proof.Machine.execExtest s
  | .jtagTestLogicReset => Sys2Proof.Machine.execJtagTestLogicReset s
  | .telemetryRefresh block m => Sys2Proof.Machine.execTelemetryRefresh block m s
  | .tick e => Sys2Proof.Machine.execTick e s
  | .fieldTestStart core => Sys2Proof.Machine.execFieldTestStart core s
  | .fieldTestDue core => Sys2Proof.Machine.execFieldTestDue core s
  | .fieldTestLate core => Sys2Proof.Machine.execFieldTestLate core s
  | .fieldTestDone core r => Sys2Proof.Machine.execFieldTestDone core r s
  | .deadline => Sys2Proof.Machine.execDeadline s
  | .frameBoundaryMessage link msg => Sys2Proof.Machine.execFrameBoundaryMessage link msg s
  | .frameAbort jobTag step attempt fo => Sys2Proof.Machine.execFrameAbort jobTag step attempt fo s
  | .meridianExchange link => Sys2Proof.Machine.execMeridianExchange link s
  | .meridianExchangeReceived link t1 t2 t3 t4 => Sys2Proof.Machine.execMeridianExchangeReceived link t1 t2 t3 t4 s
  | .meridianHoldover => Sys2Proof.Machine.execMeridianHoldover s
  | .meridianUnlock => Sys2Proof.Machine.execMeridianUnlock s
  | .meridianStep => Sys2Proof.Machine.execMeridianStep s
  | .nop k m => Sys2Proof.Machine.execNop k m s
  | .wait k m => Sys2Proof.Machine.execWait k m s
  | .post k m => Sys2Proof.Machine.execPost k m s
  | .fence k m => Sys2Proof.Machine.execFence k m s
  | .frameEnd k m => Sys2Proof.Machine.execFrameEnd k m s
  | .load k m => Sys2Proof.Machine.execLoad k m s
  | .store k m => Sys2Proof.Machine.execStore k m s
  | .gather k m => Sys2Proof.Machine.execGather k m s
  | .scatter k m => Sys2Proof.Machine.execScatter k m s
  | .fill k m => Sys2Proof.Machine.execFill k m s
  | .mma k m => Sys2Proof.Machine.execMma k m s
  | .mmas k m => Sys2Proof.Machine.execMmas k m s
  | .vprog k m => Sys2Proof.Machine.execVprog k m s
  | .vred k m => Sys2Proof.Machine.execVred k m s
  | .seed k m => Sys2Proof.Machine.execSeed k m s
  | .send k m => Sys2Proof.Machine.execSend k m s
  | .recv k m => Sys2Proof.Machine.execRecv k m s
  | .put k m => Sys2Proof.Machine.execPut k m s
  | .get k m => Sys2Proof.Machine.execGet k m s
  | .cred k m => Sys2Proof.Machine.execCred k m s
  | .turn k m => Sys2Proof.Machine.execTurn k m s
  | .upda k m => Sys2Proof.Machine.execUpda k m s
  | .updb k m => Sys2Proof.Machine.execUpdb k m s
  | .upds k m => Sys2Proof.Machine.execUpds k m s
  | .macroOpCompletion core entry upset => Sys2Proof.Machine.execMacroOpCompletion core entry upset s
  | .icacheRefillDone core line upset => Sys2Proof.Machine.execIcacheRefillDone core line upset s
  | .scrub hub channel row found => Sys2Proof.Machine.execScrub hub channel row found s
  | .hbmRepairDone hub lost => Sys2Proof.Machine.execHbmRepairDone hub lost s
  | .retrainDue hub channel why => Sys2Proof.Machine.execRetrainDue hub channel why s
  | .retrainDone hub channel converged => Sys2Proof.Machine.execRetrainDone hub channel converged s
  | .hbmRetrainOverdue hub channel => Sys2Proof.Machine.execHbmRetrainOverdue hub channel s
  | .sweepDone hub => Sys2Proof.Machine.execSweepDone hub s
  | .linkDark link => Sys2Proof.Machine.execLinkDark link s
  | .widthAgreement link msg ownLanes => Sys2Proof.Machine.execWidthAgreement link msg ownLanes s
  | .linkRetryTimer link => Sys2Proof.Machine.execLinkRetryTimer link s
  | .laneBerWindow link ber0 ber1 ber2 ber3 => Sys2Proof.Machine.execLaneBerWindow link ber0 ber1 ber2 ber3 s
  | .laneLightLoss link lane => Sys2Proof.Machine.execLaneLightLoss link lane s
  | .linkRetrainDone link lanes => Sys2Proof.Machine.execLinkRetrainDone link lanes s
  | .groupReceived link g => Sys2Proof.Machine.execGroupReceived link g s
  | .linkRetryExhausted link => Sys2Proof.Machine.execLinkRetryExhausted link s
  | .slotTransmit circuit window => Sys2Proof.Machine.execSlotTransmit circuit window s
  | .slotForward link circuit => Sys2Proof.Machine.execSlotForward link circuit s
  | .slotArrival link arriveCns slot => Sys2Proof.Machine.execSlotArrival link arriveCns slot s
  | .packetSend port => Sys2Proof.Machine.execPacketSend port s
  | .creditFlit port escFree adpFree => Sys2Proof.Machine.execCreditFlit port escFree adpFree s
  | .packetArrival port p => Sys2Proof.Machine.execPacketArrival port p s
  | .packetDelivery p arrivalLink upset => Sys2Proof.Machine.execPacketDelivery p arrivalLink upset s
  | .landingAck p => Sys2Proof.Machine.execLandingAck p s
  | .peerLost jobTag coord frame => Sys2Proof.Machine.execPeerLost jobTag coord frame s
  | .vote link m => Sys2Proof.Machine.execVote link m s
  | .unitReportTimeout => Sys2Proof.Machine.execUnitReportTimeout s
  | .decision m => Sys2Proof.Machine.execDecision m s
  | .sealMissed m => Sys2Proof.Machine.execSealMissed m s
  | .confirmationTick => Sys2Proof.Machine.execConfirmationTick s
  | .buddyCopyDone epoch crcOk => Sys2Proof.Machine.execBuddyCopyDone epoch crcOk s
  | .buddyAck m => Sys2Proof.Machine.execBuddyAck m s
  | .buddyDone link m => Sys2Proof.Machine.execBuddyDone link m s
  | .release m => Sys2Proof.Machine.execRelease m s
  | .sheetRestoreRequest granule commit => Sys2Proof.Machine.execSheetRestoreRequest granule commit s
  | .sheetRestored granule data => Sys2Proof.Machine.execSheetRestored granule data s
  | .reshapeProposal jobTag coord => Sys2Proof.Machine.execReshapeProposal jobTag coord s
  | .reshapeWindowEnd => Sys2Proof.Machine.execReshapeWindowEnd s
  | .insetRetryStart => Sys2Proof.Machine.execInsetRetryStart s
  | .migrationWindowEnd => Sys2Proof.Machine.execMigrationWindowEnd s
  | .surveyRound => Sys2Proof.Machine.execSurveyRound s
  | .legendFragment link msg => Sys2Proof.Machine.execLegendFragment link msg s
  | .surveySettled => Sys2Proof.Machine.execSurveySettled s
  | .surveyTimeout => Sys2Proof.Machine.execSurveyTimeout s
  | .gatewayModule g powerClassDw => Sys2Proof.Machine.execGatewayModule g powerClassDw s
  | .gatewayLinkDown g => Sys2Proof.Machine.execGatewayLinkDown g s
  | .tunnelPacket g tunnel jobTag seq ack inner => Sys2Proof.Machine.execTunnelPacket g tunnel jobTag seq ack inner s
  | .tunnelResend g tunnel => Sys2Proof.Machine.execTunnelResend g tunnel s
  | .rocePacket g qpn psn op => Sys2Proof.Machine.execRocePacket g qpn psn op s
  | .gatewayLinkUp g => Sys2Proof.Machine.execGatewayLinkUp g s
  | .alertCauseEnds cause => Sys2Proof.Machine.execAlertCauseEnds cause s
  | .meridianSlewEnd => Sys2Proof.Machine.execMeridianSlewEnd s
  | .planTranslationDone slot => Sys2Proof.Machine.execPlanTranslationDone slot s
  | .resetComplete => Sys2Proof.Machine.execResetComplete s
  | .i3cBlockWrite offset data => Sys2Proof.Machine.execI3cBlockWrite offset data s
  | .neighbourDiscovery port target => Sys2Proof.Machine.execNeighbourDiscovery port target s
  | .dhcpReply address => Sys2Proof.Machine.execDhcpReply address s

end Sys2Proof.Machine
end

