-- ==== Sys2Proof/Machine/Step.lean ====
section
/-! DEFINITION. One step: the command at the front of the queue, or one idle nanosecond. -/
namespace Sys2Proof.Machine

/-- A step takes the command at the front of the queue; on an empty queue the module idles and its links' side streams go on
(R218; log entry 1). -/
def step (s : State) : Host.Outcome State Fault Refusal :=
  match s.pending with
  | [] => .next s.idle.pumpSides
  | c :: rest => exec c { s with pending := rest }

/-- No row of the table gives bits, so no word spells a command and the state stays as it is (log entry 20). -/
def State.withFetchWord (s : State) (_nbits _w : Nat) : State := s

end Sys2Proof.Machine
end

