-- ==== Sys2Proof/Safety.lean ====
section
/-! DEFINITION. What claims are stated in: safe runs, the parts of the state that a frame names, the log entries and completions a
command leaves, and the canonical form of memory. -/
namespace Sys2Proof

open Sys2Proof.Machine

/-! ## Runs -/

/-- The outcome is a next state. -/
def Completes (o : Host.Outcome State Fault Refusal) : Prop :=
  ∃ t, o = .next t

/-- `n` steps, each answering a next state. -/
def runs : Nat → State → State → Prop
  | 0, s, t => t = s
  | n + 1, s, t => ∃ m, step s = .next m ∧ runs n m t

/-- Every step of a run of `n` steps answers a next state. -/
def SafeFor (n : Nat) (s : State) : Prop :=
  ∃ t, runs n s t

/-- Executing `i` in `s` answers a next state, and that state has `P`. -/
def Gives (i : Instr) (s : State) (P : State → Prop) : Prop :=
  ∃ t, exec i s = .next t ∧ P t

/-! ## Frames -/

/-- The parts of the state that a frame names. An event that is logged touches `log`, `counts`, `pendingBits`, `irqs`, `emitted` and
`status`, and of the registers, the Cofin port and the integrity counters nothing else. -/
inductive Part where
  | fuses | dev | clock | mer | log | counts | policies | pendingBits | regs | mboxes | irqs | cofin | job | sealSt | cores | coreMap
  | repairs | hubs | hbmStacks | mem | poison | dir | rowSplit | links | ports | router | gws | survey | topo | power | status | integ | dump
  | sec | mgmt | free | emitted | pending
  deriving DecidableEq, Repr

/-- The integrity counters that events raise (R379), and all else of the integrity state. -/
def eventCounts (i : Integrity) : BitVec 16 × Word × Word × Word × Word :=
  (i.lasting, i.arrayChecks, i.parityErrors, i.payloadCrcs, i.hangRecoveries)

def otherIntegrity (i : Integrity) : Integrity :=
  { i with lasting := 0, arrayChecks := 0, parityErrors := 0, payloadCrcs := 0, hangRecoveries := 0 }

/-- `t` has the part as `s` has it; memory is read byte by byte. -/
def Keeps (s t : State) : Part → Prop
  | .fuses => t.fuses = s.fuses
  | .dev => t.dev = s.dev
  | .clock => t.clock = s.clock
  | .mer => t.mer = s.mer
  | .log => t.log = s.log
  | .counts => t.faults.counts = s.faults.counts
  | .policies => t.faults.policies = s.faults.policies
  | .pendingBits => t.regs.eventPending = s.regs.eventPending
  | .regs => { t.regs with eventPending := 0 } = { s.regs with eventPending := 0 }
  | .mboxes => t.mboxes = s.mboxes
  | .irqs => t.cofin.irqDue = s.cofin.irqDue
  | .cofin => { t.cofin with irqDue := [] } = { s.cofin with irqDue := [] }
  | .job => t.job = s.job
  | .sealSt => t.sealSt = s.sealSt
  | .cores => t.cores = s.cores
  | .coreMap => t.coreMap = s.coreMap
  | .repairs => t.repairs = s.repairs
  | .hubs => t.hubs = s.hubs
  | .hbmStacks => t.hbmStacks = s.hbmStacks
  | .mem => ∀ k, t.byteAt k = s.byteAt k
  | .poison => ∀ b, Tab.get false b t.poison = Tab.get false b s.poison
  | .dir => t.dir = s.dir
  | .rowSplit => t.rowSplit = s.rowSplit
  | .links => t.links = s.links
  | .ports => t.ports = s.ports
  | .router => t.router = s.router
  | .gws => t.gws = s.gws
  | .survey => t.survey = s.survey
  | .topo => t.topo = s.topo
  | .power => t.power = s.power
  | .status => eventCounts t.integ = eventCounts s.integ
  | .integ => otherIntegrity t.integ = otherIntegrity s.integ
  | .dump => t.dump = s.dump
  | .sec => t.sec = s.sec
  | .mgmt => t.mgmt = s.mgmt
  | .free => t.free = s.free
  | .emitted => t.emitted = s.emitted
  | .pending => t.pending = s.pending

/-- `t` differs from `s` in the listed parts at most. -/
def Only (changed : List Part) (s t : State) : Prop :=
  ∀ p, p ∉ changed → Keeps s t p

/-- The parts that logging events may touch (R353 to R357, R367, R379, R385, R388). -/
def logging : List Part := [.log, .counts, .pendingBits, .irqs, .status, .emitted]

/-! ## The event log -/

/-- Nothing that coalescing (R356) or a fault window (R367, R368) holds bears on the next event: it is logged, and alone. -/
def Quiet (s : State) : Prop :=
  s.log.bursts = [] ∧ s.faults.counts = [] ∧ s.faults.policies = []

/-- The log entry of an event at its class and code (R353, R354). -/
def entryOf (s : State) (e : Event) (src detail : Nat) : Entry :=
  { event := eventWord e.info.1 src e.info.2, seq := s.log.nextSeq, uptime := BitVec.ofNat 64 s.clock.uptime
    meridian := s.meridianStamp, detail := BitVec.ofNat 64 detail }

/-- The log of `t` is that of `s` with one entry more: `e` from unit `src` (R354, R355). -/
def Logged (e : Event) (src detail : Nat) (s t : State) : Prop :=
  t.log.lastEvent = eventWord e.info.1 src e.info.2 ∧ t.log.nextSeq = s.log.nextSeq + 1 ∧
    (entryOf s e src detail ∈ t.log.first ∨ entryOf s e src detail ∈ t.log.ring)

/-- Every entry of the first-fault area is still there (R355). -/
def KeepsFirst (s t : State) : Prop :=
  ∀ e ∈ s.log.first, e ∈ t.log.first

/-! ## Mailbox commands -/

/-- Command `c`, of code `op`, is the one command of mailbox `m` that the module has fetched; its work has not begun, no earlier reset
drops its completion, its reads of host memory answer, and completions are written: the link is up, and after a ring error there is room (R384, R385,
R393, R394, R397). -/
def Fetched (m op : Nat) (c : Cmd) (s : State) : Prop :=
  (∃ f, (s.mbox m).inFlight = [f] ∧ f.tag = c.tag ∧ f.opcode.toNat = op ∧ f.begun = false) ∧
    (s.mbox m).dropped = [] ∧ c.dmaOk = true ∧ s.cofin.up = true ∧ (s.mbox m).noRoom = false

/-- The command has completed on mailbox `m` with `status`, after writing `output` at its buffer (R395). -/
def Completed (m : Nat) (c : Cmd) (status : Nat) (output : Bytes) (s t : State) : Prop :=
  (t.mbox m).inFlight = [] ∧ (t.mbox m).cmpTail = (s.mbox m).cmpTail + 1 ∧ (t.mbox m).completed = satInc (s.mbox m).completed ∧
    (∃ a d, Emission.completion m a c.tag (BitVec.ofNat 16 status) d ∈ t.emitted) ∧
    ∀ e ∈ hostPieces c.buffer output, e ∈ t.emitted

/-- The parts that completing a command may touch (R385, R395). -/
def completing : List Part := [.mboxes, .irqs, .emitted]

end Sys2Proof
end

