-- ==== Sys2Proof/Certificates/Slice0/Obligations.lean ====
section
/-! DEFINITION. The statements for the provers. Each says what its rows do: that the command answers a next state, what that state
holds, and what it leaves as it was (`Only`). -/

open Sys2Proof Sys2Proof.Machine

/-! ## The machine as a whole -/

/-- A step with a command at the front of the queue executes it with the queue's rest (the block's step). On an empty queue one nanosecond
passes while 48 V is present, and a side message that waits begins on its link (R218); with none waiting and nothing slewing the counter, the
clock alone moves. That time passes so is the model's choice (log entry 1). -/
def Obligations.StepRunsTheFrontCommand : Prop :=
  (∀ (c : Instr) (rest : List Instr) (s : State), step { s with pending := c :: rest } = exec c { s with pending := rest }) ∧
    ∀ s : State, s.pending = [] →
      (∃ t, step s = .next t ∧ t.clock.uptime = s.clock.uptime + (if s.dev.vin48 then 1 else 0) ∧ Only [.clock, .links, .emitted] s t) ∧
      ((∀ e ∈ s.links, e.2.sideQueue = []) →
        (s.dev.vin48 = true → s.mer.trim = 0 → s.mer.learned = 0 → s.mer.slew = none → 0 ≤ s.clock.phase → s.clock.phase < 100000000 →
          step s = .next { s with clock := { s.clock with uptime := s.clock.uptime + 1, meridian := s.clock.meridian + 1 } }) ∧
        (s.dev.vin48 = false → step s = .next s))

/-- What reset leaves (R28, R30, R167, R190, R354, R355, R387 to R389, R392, R414): the module is HELD with cause 1, without firmware or
configuration and with its main domain off; the counters stand at 0, the log is empty with SEQ 1 next, the registers hold their Reset
columns, and no command waits. Memory lists nothing and every byte reads 0, which is the model's choice (log entry 5). -/
def Obligations.ResetLeavesTheModuleHeld : Prop :=
  State.reset.dev.state = .held ∧ State.reset.dev.heldCause = 1 ∧ State.reset.dev.firmware = false ∧ State.reset.dev.mainOn = false ∧
    State.reset.dev.config = none ∧ State.reset.clock = {} ∧ State.reset.mer.lock = 0 ∧ State.reset.mer.depth = 0xFF ∧
    State.reset.log = { nextSeq := 1 } ∧ State.reset.regs.lossScale = 0x3F800000 ∧ State.reset.regs.invLossScale = 0x3F800000 ∧
    State.reset.regs.latchedStep = 0xFFFFFFFF ∧ (∀ k, Tab.get 0 k State.reset.regs.page = 0) ∧
    (∀ m, State.reset.mbox m = {} ∧ (State.reset.mbox m).version = 3 ∧ (State.reset.mbox m).irqCount = 1 ∧ (State.reset.mbox m).enable = false) ∧
    State.reset.cofin.up = false ∧ State.reset.job.bind = none ∧ State.reset.power.capW = 4800 ∧ State.reset.rowSplit = 262144 ∧
    State.reset.pending = [] ∧ Memory.wf State.reset.mem = true ∧ ∀ k, State.reset.byteAt k = 0

/-- No run stops: from every state, any number of steps answers a next state, takes the commands in the order in which they wait, and
leaves the fuses as they are. -/
def Obligations.EveryRunCompletes : Prop :=
  ∀ (n : Nat) (s : State), ∃ t, runs n s t ∧ t.pending = s.pending.drop n ∧ t.fuses = s.fuses

/-- Every step keeps memory in its canonical form: addresses strictly rising, and no byte listed at the value an unlisted address reads as. -/
def Obligations.EveryStepKeepsMemoryCanonical : Prop :=
  ∀ s t : State, Memory.wf s.mem = true → step s = .next t → Memory.wf t.mem = true

/-! ## 48 V, sideband and the alert floor -/

/-- 48 V comes and goes, and the standby domain's regulators settle (R414 steps 1 to 3, R432, R21): after a loss the module is OFF with
nothing in its log and its memory; when 48 V returns it waits in HELD with cause 1; the fuses are as they were. The regulators settle into step 4 with
the Cofin port training at generation 3, and the datagrams of what was logged before are sent then, which is the model's choice (log entry 144). -/
def Obligations.SupplyRowsPowerAndStandby : Prop :=
  ∀ s : State,
    (s.dev.vin48 = false → Gives .powerApplied s fun t =>
      t.dev.vin48 = true ∧ t.dev.state = .held ∧ t.dev.heldCause = 1 ∧ t.dev.startStep = 2 ∧ t.dev.mainOn = false ∧
        t.clock.uptime = 0 ∧ (∀ k, t.byteAt k = 0) ∧ t.fuses = s.fuses ∧ t.pending = s.pending) ∧
    (s.dev.vin48 = true → s.dev.standbyOn = false → s.dev.startStep = 2 →
      (Gives (.standbyRegulation true) s fun t =>
        t.dev.standbyOn = true ∧ t.dev.startStep = 4 ∧ t.dev.state = s.dev.state ∧ t.cofin.trying = some .gen3 ∧
          (∀ e ∈ s.log.first ++ s.log.ring, s.eventDatagram e ∈ t.emitted) ∧ Only [.dev, .cofin, .emitted] s t) ∧
      Gives (.standbyRegulation false) s fun t => t.dev.state = .off ∧ t.dev.standbyOn = false ∧ Only [.dev] s t) ∧
    (s.dev.vin48 = true → Gives .inputLoss s fun t =>
      t.dev.vin48 = false ∧ t.dev.standbyOn = false ∧ t.dev.mainOn = false ∧ t.dev.state = .off ∧ t.log = {} ∧ t.dump = {} ∧
        t.sec.licences = [] ∧ t.cores = [] ∧ (∀ k, t.byteAt k = 0) ∧ t.fuses = s.fuses ∧ t.pending = s.pending)

/-- The power settings in force once those still to be applied take effect (R335): CAP_W and FLOOR_HOLD_US. -/
def settledPower (p : Power) : Nat × Nat :=
  match p.next with
  | none => (p.capW, p.floorHoldUs)
  | some (cap, _, _, hold) => (cap, hold)

/-- What every module reset leaves (R335, R370, R374): HELD with its cause, the control dies restarting, the main domain off with all it held;
kept are the first-fault entries of the log, licences, energy, uptime, fault policies, and the power settings, accepted ones included. -/
def AfterModuleReset (cause : Nat) (s t : State) : Prop :=
  t.dev.state = .held ∧ t.dev.heldCause = BitVec.ofNat 8 cause ∧ t.dev.romRestart = true ∧ t.dev.mainOn = false ∧ t.dev.firmware = false ∧
    t.cores = [] ∧ t.coreMap = [] ∧ t.hubs = [] ∧ t.job = {} ∧ t.topo = {} ∧ (∀ k, t.byteAt k = 0) ∧
    KeepsFirst s t ∧ t.faults.policies = s.faults.policies ∧ t.sec.licences = s.sec.licences ∧ t.clock.energy = s.clock.energy ∧
    t.clock.uptime = s.clock.uptime ∧ (t.power.capW, t.power.floorHoldUs) = settledPower s.power ∧
    t.fuses = s.fuses ∧ t.pending = s.pending

/-- Four sources of a module reset end in HELD with their cause: MOD_RESET_N 5, a control mismatch 4, the watchdog 7, more than 62 V 5;
the last also holds the module until OVERVOLTAGE_RECOVERY and drives THERMTRIP_N (R19, R370, R374, R432, R435). -/
def Obligations.ModuleResetSourcesEndInHeld : Prop :=
  ∀ s : State, s.dev.vin48 = true → s.dev.standbyOn = true → s.dump.held = none → s.dump.running = none →
    (∀ lowNs, 10000 ≤ lowNs → s.dev.romRestart = false → Gives (.modReset lowNs) s (AfterModuleReset 5 s)) ∧
    (∀ lowNs, lowNs < 10000 → Gives (.modReset lowNs) s (Only [] s)) ∧
    Gives .controlMismatch s (AfterModuleReset 4 s) ∧
    Gives .controlWatchdog s (AfterModuleReset 7 s) ∧
    Gives .inputOvervoltage s fun t => AfterModuleReset 5 s t ∧ t.dev.overvolt = true ∧ t.mgmt.thermTrip = true

/-- OVERVOLTAGE_RECOVERY ends the overvoltage hold (R432): THERMTRIP_N stays low only for a thermal hold; a module in HELD whose firmware
runs waits with cause 3, and goes on to step 5 in INITIALISING where it has a configuration and no thermal hold (R390, R414). With no
overvoltage nothing changes. The coolant outlet at 65 °C is logged, with the temperature in the detail, and below it nothing changes
(R27). A die at 115 °C with the main domain on (R349): a bound job's module sends PEER_LOST naming itself and THERMAL_TRIP is logged with
the die as its source; the module enters STANDBY, the main domain goes off with all it held, every link that the licences enable goes
dark, THERMTRIP_N is low and the hold is set; the first-fault entries of the log survive. A control die's trip with the main domain off is
logged and held alike, and the state stays, which is the model's choice (log entry 146). -/
def Obligations.OvervoltageCoolantAndThermalTrip : Prop :=
  (∀ s : State, s.dev.standbyOn = true →
    (s.dev.overvolt = true → ¬(s.dev.state = .held ∧ s.dev.firmware = true) → Gives .overvoltageRecovery s fun t =>
      t.dev = { s.dev with overvolt := false } ∧ t.mgmt.thermTrip = s.dev.thermalHold ∧ Only [.dev, .mgmt] s t) ∧
    (s.dev.overvolt = true → s.dev.state = .held → s.dev.firmware = true → s.dev.config = none ∨ s.dev.thermalHold = true →
      Gives .overvoltageRecovery s fun t =>
        t.dev = { s.dev with overvolt := false, heldCause := 3 } ∧ t.mgmt.thermTrip = s.dev.thermalHold ∧ Only [.dev, .mgmt] s t) ∧
    (s.dev.overvolt = true → s.dev.state = .held → s.dev.firmware = true → s.dev.config.isSome = true → s.dev.thermalHold = false →
      Gives .overvoltageRecovery s fun t =>
        t.dev.overvolt = false ∧ t.dev.state = .initialising ∧ t.dev.startStep = 5 ∧ t.mgmt.thermTrip = false ∧
          Only (.dev :: .mgmt :: logging) s t) ∧
    (s.dev.overvolt = false → Gives .overvoltageRecovery s (Only [] s)) ∧
    (∀ temp : Int, Quiet s → 520 ≤ temp → Gives (.coolantOutlet temp) s fun t =>
      Logged .coolantOutlet srcCarrier (temp16 temp) s t ∧ Only logging s t) ∧
    (∀ temp : Int, temp < 520 → Gives (.coolantOutlet temp) s (Only [] s))) ∧
  (∀ (s : State) (die : Die),
    (s.dev.mainOn = true → Gives (.thermalTrip die) s fun t =>
      t.dev.state = .standby ∧ t.dev.mainOn = false ∧ t.dev.thermalHold = true ∧ t.mgmt.thermTrip = true ∧
        (∀ e ∈ t.cores, e.2.strands = [] ∧ e.2.flights = []) ∧ t.hubs = [] ∧ t.ports = [] ∧ t.job = {} ∧ (∀ k, t.byteAt k = 0) ∧
        (∀ n ∈ s.enabledLinks, (t.link n).state = .dark) ∧
        (s.job.bind.isSome = true → Emission.peerLost s.jobTag s.ownCoord s.job.now ∈ t.emitted) ∧
        (Quiet s → ∃ e, (e ∈ t.log.first ∨ e ∈ t.log.ring) ∧ e.event = eventWord Event.thermalTrip.info.1 (srcDie die) Event.thermalTrip.info.2) ∧
        KeepsFirst s t ∧ t.clock = s.clock ∧ t.sec = s.sec ∧ t.pending = s.pending) ∧
    (s.dev.mainOn = false → s.dev.standbyOn = true → standbyDie (srcDie die) = true → Quiet s → Gives (.thermalTrip die) s fun t =>
      t.dev = { s.dev with thermalHold := true } ∧ t.mgmt.thermTrip = true ∧ Logged .thermalTrip (srcDie die) 0 s t ∧
        Only (.dev :: .mgmt :: .power :: logging) s t) ∧
    (s.dev.mainOn = false → standbyDie (srcDie die) = false → Gives (.thermalTrip die) s (Only [.power] s)))

/-- The level a reading gives a unit: a reading at a threshold counts as reached, a level is left only below its second threshold (R205,
R348). -/
def LevelAfter (l : Ladder) (old new : Heat) (t : Int) : Prop :=
  (l.critical ≤ t → new = .critical) ∧
    (old ≠ .critical → t < l.critical → l.hot ≤ t → new = .hot) ∧
    (old ≠ .critical → t < l.hot → l.coolHot ≤ t → (old = .hot → new = .hot) ∧ (old ≠ .hot → new = .warm)) ∧
    (old ≠ .critical → t < l.coolHot → l.warm ≤ t → new = .warm) ∧
    (old ≠ .critical → t < l.warm → t < l.coolHot → l.coolWarm ≤ t → (old = .normal → new = .normal) ∧ (old ≠ .normal → new = .warm)) ∧
    (old ≠ .critical → t < l.coolWarm → t < l.coolHot → new = .normal)

/-- Temperature readings move a die and a stack along their ladders (R205, R348): dies at 95 and 105 °C, left below 92 and 100 °C, with 115 °C THERMAL_TRIP's;
stacks at 85, 95 and 105 °C, left below 82 and 92 °C. Units are 0.125 °C. A die's reading moves nothing but its record, the thermal term, the log
and the trip's hold, which ends once every die reads below 70 °C (R349, R435); a control die, in the standby domain, is read with the main domain off too
(R21). A stack that turns critical is stopped. -/
def Obligations.TemperatureReadingsFollowTheLadders : Prop :=
  (∀ (s : State) (die : Die) (temp : Int), s.dev.standbyOn = true → (s.dev.mainOn = true ∨ standbyDie (srcDie die) = true) → temp < 920 →
    Gives (.dieTemperatureReading die temp) s fun t =>
      LevelAfter ⟨760, 840, 920, 736, 800⟩ (Tab.get {} (srcDie die) s.power.dies).level (Tab.get {} (srcDie die) t.power.dies).level temp ∧
        (Tab.get {} (srcDie die) t.power.dies).temp = temp ∧
        (t.dev.thermalHold = true ↔ s.dev.thermalHold = true ∧ ∃ k ∈ dieKeys, 560 ≤ (Tab.get {} k t.power.dies).temp) ∧
        t.dev = { s.dev with thermalHold := t.dev.thermalHold } ∧
        (t.dev.thermalHold = s.dev.thermalHold → Only (.power :: logging) s t) ∧ Only (.power :: .dev :: .mgmt :: logging) s t) ∧
  (∀ (s : State) (stack : Fin 24) (temp : Int), s.dev.mainOn = true →
    Gives (.stackTemperatureReading stack temp) s fun t =>
      LevelAfter ⟨680, 760, 840, 656, 736⟩ (s.stack stack).heat.level (t.stack stack).heat.level temp ∧ (t.stack stack).heat.temp = temp ∧
        ((s.stack stack).heat.level ≠ .critical → 840 ≤ temp → (t.stack stack).stopped = true))

/-- The alert floor (R346, R347): a first cause enters it, once, with the main domain on, and is logged; that of R336 does where a POWER_CAP_UNMET waits;
the last cause to end starts the hold of FLOOR_HOLD_US; with no job bound the end of the hold leaves it. A 10 ms average above 102 % of CAP_W, taken
since the cap last changed (R351), raises the contour by one, and at contour 3 is logged as POWER_CAP_UNMET (R336). -/
def Obligations.AlertFloorIsEnteredHeldAndLeft : Prop :=
  ∀ s : State, s.dev.standbyOn = true → s.dev.mainOn = true →
    (∀ c : AlertCause, c ≠ .capUnmet → s.power.causes = [] → s.power.floor = false → Quiet s →
      Gives (.alertFloor c) s fun t =>
        t.power.floor = true ∧ t.power.causes = [c] ∧ t.power.holdEnd = none ∧ t.power.alerts = satInc s.power.alerts ∧
          (t.mgmt.vrAlert = true ↔ s.mgmt.vrAlert = true ∨ c = .power ∨ c = .inputLow) ∧
          t.log.lastEvent = eventWord Event.alertFloor.info.1 srcCarrier Event.alertFloor.info.2 ∧
          Only (.power :: .mgmt :: logging) s t) ∧
    (∀ c : AlertCause, s.power.causes = [c] → Gives (.alertCauseEnds c) s fun t =>
      t.power.causes = [] ∧ t.power.holdEnd = some (s.clock.uptime + 1000 * s.power.floorHoldUs) ∧ t.power.floor = s.power.floor ∧
        t.mgmt.vrAlert = false ∧ Only [.power, .mgmt] s t) ∧
    (∀ e : Nat, s.power.holdEnd = some e → s.power.floor = true → s.job.bind = none → Gives .floorHoldEnd s fun t =>
      t.power.floor = false ∧ t.power.holdEnd = none ∧ t.clock.uptime = max s.clock.uptime e ∧ Only [.power, .clock] s t) ∧
    (s.power.unmetDue = true → s.power.causes = [] → s.power.floor = false → Gives (.alertFloor .capUnmet) s fun t =>
      t.power.floor = true ∧ t.power.causes = [.capUnmet] ∧ t.power.capUnmet = true ∧ t.power.unmetDue = false ∧ Only (.power :: logging) s t) ∧
    (∀ mw : Nat, 102 * s.power.capW * 1000 < 100 * mw → s.power.capAt + 10000000 ≤ s.clock.uptime → s.job.bind.isSome = true →
      (s.job.contour < 3 → Gives (.powerOverCap mw) s fun t =>
        t.power.raise = max s.power.raise (s.job.contour + 1) ∧ Only (.power :: logging) s t) ∧
      (3 ≤ s.job.contour → Quiet s → Gives (.powerOverCap mw) s fun t =>
        t.power.unmetDue = true ∧ Logged .powerCapUnmet srcCarrier 0 s t ∧ Only (.power :: logging) s t))

/-! ## Start-up steps 5 to 8 -/

/-- Step 5 (R414, R419, R420): power that fails ends in HELD with cause 3; with every core sound, each hub gives its highest core up as a
spare and the other 120 take logical numbers in physical order. Step 6 (R204, R414): a stack with two failed channels ends start-up in
HELD with cause 6; with no failed channel step 7 begins and every licensed link trains. Step 7 never fails: it ends 120 ms after it began,
and survey begins. Not Locked 2 s after survey ended: START_STEP_SLOW, and the module stays in INITIALISING. -/
def Obligations.StartUpStepsPowerTrainAndSurvey : Prop :=
  (∀ s : State, s.dev.state = .initialising → s.dev.startStep = 5 →
    (∀ l, Gives (.mainDomainPowered false l) s fun t =>
      t.dev.state = .held ∧ t.dev.heldCause = 3 ∧ t.dev.mainOn = false ∧ t.dev.startStep = 4 ∧ KeepsFirst s t) ∧
    (s.fuses.disabled = [] → s.fuses.arrays = [] → s.repairs = [] → (∀ c, s.dev.config = some c → c.defects = []) →
      Gives (.mainDomainPowered true []) s fun t =>
        t.dev.state = .initialising ∧ t.dev.mainOn = true ∧ t.dev.startStep = 6 ∧
          t.coreMap = (List.range 128).filter (fun p => p % 16 ≠ 15) ∧ t.integ.passed = satAdd s.integ.passed 128 ∧
          (∀ n < 120, (t.core (t.phys n)).logical = BitVec.ofNat 8 n) ∧ Only [.dev, .cores, .coreMap, .integ, .power] s t)) ∧
  (∀ s : State, s.dev.state = .initialising →
    (s.dev.startStep = 6 → ∀ (st : Fin 24) (a b : Fin 32), a ≠ b → Gives (.hbmTrainingDone [(st, a), (st, b)]) s fun t =>
      t.dev.state = .held ∧ t.dev.heldCause = 6 ∧ t.dev.mainOn = false ∧ t.dev.startStep = 4 ∧ KeepsFirst s t) ∧
    (s.dev.startStep = 6 → Gives (.hbmTrainingDone []) s fun t =>
      t.dev.startStep = 7 ∧ t.dev.stepEnds = s.dev.stepEnds ++ [s.ms] ∧ (∀ n < 16, (t.link n).state = .training) ∧
        (∀ k, t.byteAt k = s.byteAt k) ∧ t.cores = s.cores) ∧
    (s.dev.startStep = 7 → Gives .linkTrainingEnd s fun t =>
      t.dev.startStep = 8 ∧ t.dev.state = .initialising ∧ t.dev.surveyEnd = none ∧
        t.clock.uptime = max s.clock.uptime (((s.dev.stepEnds.getLast?).getD 0 + 120) * 1000000) ∧ (∀ k, t.byteAt k = s.byteAt k)) ∧
    (∀ e, s.dev.startStep = 8 → s.dev.surveyEnd = some e → s.mer.lock ≠ 2 → s.dev.slow = false → Quiet s →
      Gives .startStepSlow s fun t =>
        t.dev.slow = true ∧ t.dev.state = .initialising ∧ t.clock.uptime = max s.clock.uptime (e + 2000000000) ∧
          t.log.lastEvent = eventWord Event.startStepSlow.info.1 srcModule Event.startStepSlow.info.2 ∧
          Only (.dev :: .clock :: logging) s t))

/-! ## Cofin and the host window -/

/-- The Cofin link (R383, R385): training tries each generation for 50 ms, generation 3 first; when it comes up, the interrupts and, on a
mailbox without a ring error, the completions that waited are written; when it goes down, training begins again. -/
def Obligations.CofinLinkTrainsRisesAndFalls : Prop :=
  ∀ s : State,
    (s.cofin.trying = some .gen3 → Gives .cofinTrainingTimer s fun t => t.cofin.trying = some .gen2 ∧ Only [.cofin] s t) ∧
    (s.cofin.trying = some .gen2 → Gives .cofinTrainingTimer s fun t => t.cofin.trying = some .gen3 ∧ Only [.cofin] s t) ∧
    (∀ g, s.cofin.trying = some g → Gives (.cofinUp g) s fun t =>
      t.cofin.up = true ∧ t.cofin.gen = (if g = .gen3 then 3 else 2) ∧ t.cofin.trying = none ∧ t.cofin.irqDue = [] ∧
        (∀ i ∈ s.cofin.irqDue, Emission.interrupt i.1 i.2 ∈ t.emitted) ∧
        (∀ m < 7, (t.mbox m).heldOut = [] ∧ (t.mbox m).inFlight = (s.mbox m).inFlight ∧
          ((s.mbox m).ringError = false → (t.mbox m).cmpTail = (s.mbox m).cmpTail + BitVec.ofNat 32 (s.mbox m).heldOut.length)) ∧
        Only (.cofin :: .mboxes :: logging) s t) ∧
    (s.cofin.up = true → Gives .cofinDown s fun t =>
      t.cofin.up = false ∧ t.cofin.trying = some .gen3 ∧ Only (.cofin :: logging) s t)

/-- The ring registers (R392, R393, R397): a doorbell records CMD_TAIL and a ring that it overfills takes a ring error with cause 2;
CMP_HEAD and ENABLE are written, and a CMP_HEAD past CMP_TAIL is cause 3, taken when it is written or when ENABLE is; sizes out of range are cause 1;
RESET empties the rings and drops the completions of what was fetched. -/
def Obligations.MailboxRingRegisters : Prop :=
  ∀ (s : State) (m : Fin 7), s.cofin.up = true → s.dev.standbyOn = true →
    (∀ tail : Word, Gives (.doorbell m tail) s fun t =>
      (t.mbox m).cmdTail = tail ∧ (∀ n, n ≠ m.val → t.mbox n = s.mbox n) ∧
        ((s.mbox m).enable = true → (s.mbox m).ringError = false → (s.mbox m).badSizes = false →
          2 ^ (s.mbox m).cmdLog2.toNat < (tail - (s.mbox m).cmdHead).toNat → (t.mbox m).ringError = true ∧ (t.mbox m).errorCause = 2) ∧
        Only (.mboxes :: logging) s t) ∧
    (∀ head : Word, Gives (.cmpHeadWrite m head) s fun t =>
      (t.mbox m).cmpHead = head ∧ ((s.mbox m).enable = false → (t.mbox m).ringError = (s.mbox m).ringError) ∧
        ((s.mbox m).enable = true → (s.mbox m).ringError = false → 2 ^ (s.mbox m).cmpLog2.toNat < ((s.mbox m).cmpTail - head).toNat →
          (t.mbox m).ringError = true ∧ (t.mbox m).errorCause = 3) ∧
        (∀ n, n ≠ m.val → t.mbox n = s.mbox n) ∧ Only (.mboxes :: logging) s t) ∧
    (∀ irqEn : Bool, Gives (.mailboxEnable m irqEn) s fun t =>
      (t.mbox m).enable = true ∧ (t.mbox m).irqEn = irqEn ∧
        ((s.mbox m).ringError = false → (s.mbox m).badSizes = true → (t.mbox m).ringError = true ∧ (t.mbox m).errorCause = 1) ∧
        ((s.mbox m).ringError = false → (s.mbox m).badSizes = false →
          ((s.mbox m).cmdTail - (s.mbox m).cmdHead).toNat ≤ 2 ^ (s.mbox m).cmdLog2.toNat →
          2 ^ (s.mbox m).cmpLog2.toNat < ((s.mbox m).cmpTail - (s.mbox m).cmpHead).toNat →
          (t.mbox m).ringError = true ∧ (t.mbox m).errorCause = 3) ∧
        (∀ n, n ≠ m.val → t.mbox n = s.mbox n) ∧ Only (.mboxes :: logging) s t) ∧
    (Gives (.mailboxReset m) s fun t =>
      (t.mbox m).enable = false ∧ (t.mbox m).ringError = false ∧ (t.mbox m).inFlight = [] ∧ (t.mbox m).cmdHead = 0 ∧
        (t.mbox m).cmdTail = 0 ∧ (t.mbox m).cmpHead = 0 ∧ (t.mbox m).cmpTail = 0 ∧ (t.mbox m).completed = 0 ∧
        (t.mbox m).dropped = (s.mbox m).dropped ++ (s.mbox m).inFlight ∧ (t.mbox m).cmdBase = (s.mbox m).cmdBase ∧
        (∀ n, n ≠ m.val → t.mbox n = s.mbox n) ∧ Only [.mboxes] s t)

/-- Writes of the host window (R384, R386, R388, R392, R393, R397): a write of 4 or 8 aligned bytes takes effect where the window has a
writable register: here the step parameter page, without its reserved bits, EVENT_IRQ_EN, IRQ_COUNT and IRQ_DELAY_US; a write at a read-
only place, of another size or unaligned is ignored. Reserved ranges of the window and mailbox 7's range read as zero (R12, R386, R399).
Writing 1 to bits of EVENT_PENDING clears exactly those bits (R388): class k at bit k. -/
def Obligations.RegisterWritesAndPendingBits : Prop :=
  (∀ s : State, s.cofin.up = true → s.dev.standbyOn = true → ∀ v : BitVec 64,
    (∀ off, (0x300 ≤ off ∧ off < 0x1000 ∨ 0x1700 ≤ off ∧ off < 0x2000) → s.windowByte off = 0) ∧
    (∀ r, 13 ≤ r → r < 16 → Gives (.registerWrite (0x200 + 4 * r) 4 v) s (Only [] s)) ∧
    (∀ r < 56, (r < 13 ∨ 16 ≤ r) → Gives (.registerWrite (0x200 + 4 * r) 4 v) s fun t =>
      (∀ i < 4, t.windowByte (0x200 + 4 * r + i) = BitVec.ofNat 8 ((if r = 1 then v.toNat % 2 ^ 26 else v.toNat) / 256 ^ i)) ∧
        (∀ k, (k < 4 * r ∨ 4 * r + 4 ≤ k) → Tab.get 0 k t.regs.page = Tab.get 0 k s.regs.page) ∧ Only [.regs] s t) ∧
    (Gives (.registerWrite 0x114 4 v) s fun t =>
      t.regs.eventIrqEn = BitVec.ofNat 8 (v.toNat % 2 ^ 32 / 2) ∧ t.regs.page = s.regs.page ∧ Only [.regs] s t) ∧
    (∀ m < 7, Gives (.registerWrite (0x1000 + 256 * m + 0x3C) 4 v) s fun t =>
      (t.mbox m).irqCount = BitVec.ofNat 8 v.toNat ∧ (t.mbox m).irqDelayUs = BitVec.ofNat 16 (v.toNat / 65536) ∧
        (∀ n, n ≠ m → t.mbox n = s.mbox n) ∧ Only [.mboxes] s t) ∧
    (∀ off, (off < 0x100 ∨ 0x2E0 ≤ off ∧ off < 0x1000 ∨ 0x1700 ≤ off) → off % 4 = 0 → Gives (.registerWrite off 4 v) s (Only [] s)) ∧
    (∀ off size, (size ≠ 4 ∧ size ≠ 8 ∨ off % size ≠ 0) → Gives (.registerWrite off size v) s (Only [] s))) ∧
  (∀ (s : State) (mask : Word), s.cofin.up = true → s.dev.standbyOn = true →
    Gives (.eventPendingClear mask) s fun t =>
      (∀ i < 8, t.regs.eventPending.getLsbD i = (s.regs.eventPending.getLsbD i && !mask.getLsbD (i + 1))) ∧ Only [.pendingBits] s t)

/-- Fetching (R393, R394, R396): with the link up, on an enabled mailbox without a ring error that the state serves, with a command in the ring and room
for its completion, and nothing in flight, COMMAND_FETCH fetches. A command that exists and that the state allows, with a buffer at a multiple of 64
and no shorter than its fixed length, goes in flight with its timeout running; one with an unknown opcode completes with 0x011A; a read error
of the ring is a ring error with cause 4. -/
def Obligations.CommandFetchPutsCommandsInFlight : Prop :=
  ∀ (s : State) (m : Fin 7) (d : Descriptor), s.cofin.up = true → s.dev.state.serves m = true → s.dev.romRestart = false →
    (s.mbox m).enable = true → (s.mbox m).ringError = false → (s.mbox m).cmdHead ≠ (s.mbox m).cmdTail → (s.mbox m).inFlight = [] →
    (s.mbox m).heldOut = [] → (s.mbox m).dropped = [] → ((s.mbox m).cmpTail - (s.mbox m).cmpHead).toNat < 2 ^ (s.mbox m).cmpLog2.toNat →
    (s.exists? m d.opcode.toNat = true → s.allows d.opcode.toNat = true → (d.cmd.buffer.toNat % 64 = 0 ∨ d.cmd.length = 0) →
      inputLength d.opcode.toNat ≤ d.cmd.length.toNat → ∃ t, exec (.commandFetch m d true) s = .next t ∧
      (∃ f, (t.mbox m).inFlight = [f] ∧ f.tag = d.cmd.tag ∧ f.opcode = d.opcode ∧ f.begun = false ∧
        f.deadline = s.clock.uptime + s.timeoutNs m d.opcode.toNat d.cmd) ∧
        (t.mbox m).cmdHead = (s.mbox m).cmdHead + 1 ∧ (∀ n, n ≠ m.val → t.mbox n = s.mbox n) ∧ Only [.mboxes] s t) ∧
    (s.exists? m d.opcode.toNat = false → Gives (.commandFetch m d true) s fun t =>
      (t.mbox m).cmdHead = (s.mbox m).cmdHead + 1 ∧ Completed m d.cmd 0x011A [] s t ∧ Only completing s t) ∧
    (Gives (.commandFetch m d false) s fun t =>
      (t.mbox m).ringError = true ∧ (t.mbox m).errorCause = 4 ∧ (t.mbox m).cmdHead = (s.mbox m).cmdHead ∧
        Only (.mboxes :: logging) s t)

/-- Interrupt delay and timeouts (R372, R395): when IRQ_DELAY_US has passed, the interrupt of waiting completions is sent; a command whose
timeout expires completes with 0x0701, where its ring has room, and logs COMMAND_TIMEOUT at its deadline. -/
def Obligations.CompletionDelayAndCommandTimeout : Prop :=
  ∀ (s : State) (m : Fin 7), s.cofin.up = true →
    ((s.mbox m).irqEn = true → 0 < (s.mbox m).unsignalled → (s.mbox m).irqDelayUs ≠ 0 → Gives (.completionIrqDelay m) s fun t =>
      (t.mbox m).unsignalled = 0 ∧ t.emitted = .interrupt (s.mbox m).irqAddr (s.mbox m).irqData :: s.emitted ∧
        Only [.mboxes, .emitted] s t) ∧
    (∀ (c : Cmd) (f : InFlightCmd), (s.mbox m).inFlight = [f] → f.tag = c.tag → (s.mbox m).dropped = [] →
      usesPartition f.opcode.toNat = false → (s.mbox m).noRoom = false → Quiet s → Gives (.commandTimeout m c.tag) s fun t =>
        Completed m c 0x0701 [] s t ∧ t.clock.uptime = max s.clock.uptime f.deadline ∧
          t.log.lastEvent = eventWord Event.commandTimeout.info.1 srcControl Event.commandTimeout.info.2 ∧
          Only (.clock :: .mboxes :: logging) s t)

/-- The event is in the log with the number and the time that `s` gives it (R354, R355). -/
def InLog (s : State) (e : Event) (src detail : Nat) (t : State) : Prop :=
  entryOf s e src detail ∈ t.log.first ∨ entryOf s e src detail ∈ t.log.ring

/-- A running dump (R375, R376): a unit that does not answer is listed once, and where it is the hub of the dump region the dump is a summary only;
at its end the dump is held, DUMP_DONE is logged and the module returns to the state it came from. A reset that waits 100 ms ends a running dump as
partial, with DUMP_DONE, and is taken (R380). The hold of a module reset ends at 10 minutes in HELD, with the main domain off and the summary kept
(R377). -/
def Obligations.DumpRowsCaptureHoldAndEnd : Prop :=
  ∀ s : State,
    (∀ r : DumpRec, s.dump.running = some r →
      (∀ u : BitVec 12, r.unreachable.contains u = false → Gives (.dumpUnitUnreachable u) s fun t =>
        (∃ b, t.dump = { s.dump with running := some { r with unreachable := r.unreachable ++ [u], summaryOnly := b } } ∧
          (b = true ↔ r.summaryOnly = true ∨ ∃ h, s.dump.region = some h ∧ srcHub h = u.toNat)) ∧ Only [.dump] s t) ∧
      (∀ u : BitVec 12, r.unreachable.contains u = true → Gives (.dumpUnitUnreachable u) s fun t =>
        (∃ q, t.dump.running = some q ∧ q.unreachable = r.unreachable) ∧ Only [.dump] s t) ∧
      (s.dump.tag = none → s.dump.skipped = false → s.dump.pendingResets = [] → s.dump.hang = false → Quiet s → Gives .dumpDone s fun t =>
        t.dump.running = none ∧ t.dump.held = some { r with partial_ := false, ended := s.clock.uptime } ∧ t.dev.state = s.dump.back ∧
          InLog s .dumpDone srcControl 0 t ∧ Only (.dump :: .dev :: logging) s t) ∧
      (∀ k, s.dump.tag = none → s.dump.skipped = false → s.dump.pendingResets = [(.partition, 0, k)] → Quiet s →
        Gives .dumpingResetHoldExpiry s fun t =>
          t.dump.running = none ∧ t.dump.held = some { r with partial_ := true, ended := s.clock.uptime } ∧ t.dump.pendingResets = [] ∧
            InLog s .dumpDone srcControl 0 t ∧ (⟨.partition, 0, s.clock.uptime + 400000⟩ : ResetRun) ∈ t.dev.resets ∧
            ∀ p < 128, (t.core p).inReset = true)) ∧
    (∀ c, s.dump.moduleHold = some c → Gives .dumpHoldTimeout s fun t =>
      t.dump.moduleHold = none ∧ t.dump.region = none ∧ t.dump.held = s.dump.held.map (fun q => { q with summaryOnly := true }) ∧
        t.dev.state = .held ∧ t.dev.heldCause = BitVec.ofNat 8 c.toNat ∧ t.dev.mainOn = false ∧ (∀ e ∈ t.cores, e.2.strands = [] ∧ e.2.flights = []) ∧
        t.hubs = [] ∧ ∀ k, t.byteAt k = 0)

/-! ## Mailbox 0: administration -/

/-- Resets in progress and coalesced events (R356, R370, R371): a core reset that is still running 10 µs after it began becomes a hang
recovery; the reset that is due first completes and its cores may work again; when a millisecond ends, suppressed events are logged. RESET
by the host (R370, R402): it completes first; then a core, a cluster or the partition is reset, and its cores stop until the reset
completes; a module reset ends in HELD with cause 5; a level or a target out of range completes with 0x011C and resets nothing. -/
def Obligations.ResetsCompleteAndBurstsEnd : Prop :=
  (∀ s : State,
    (∀ core : Fin 128, ∀ due, s.dev.resets = [⟨.core, core.val, due⟩] → s.dump.hang = false → s.dump.running = none → s.dump.held = none →
      (Gives (.coreResetTimeout core) s fun t =>
        t.dump.hang = true ∧ t.dev.state = .dumping ∧ t.dump.running.isSome = true ∧
          t.clock.uptime = max s.clock.uptime (due + 8000) ∧ (∀ e ∈ t.cores, e.2.stopped = true)) ∧
      Gives .resetComplete s fun t => t.dev.resets = [] ∧ (t.core core).inReset = false ∧ Only [.dev, .cores] s t) ∧
    (∀ b : Burst, s.log.bursts = [b] → 4 < b.seen → Gives .eventsCoalesced s fun t =>
      t.log.bursts = [] ∧ t.log.nextSeq = s.log.nextSeq + 1 ∧ s.clock.uptime ≤ t.clock.uptime ∧ (b.ms + 1) * 1000000 ≤ t.clock.uptime ∧
        Only (.clock :: logging) s t)) ∧
  (∀ (s : State) (c : Cmd) (target : BitVec 16), Fetched 0 0x0002 c s → s.dump.running = none → s.dump.held = none →
    (c.mboxByte = 0 → target.toNat < s.coreMap.length → Gives (.reset c target) s fun t =>
      Completed 0 c 0 [] s t ∧ (t.core (s.phys target.toNat)).inReset = true ∧ (t.core (s.phys target.toNat)).stopped = true ∧
        (t.core (s.phys target.toNat)).strands.all (fun e => e.2.st = .idle) = true ∧
        (∀ p, p ≠ s.phys target.toNat → t.core p = s.core p) ∧
        (⟨.core, s.phys target.toNat, s.clock.uptime + 2000⟩ : ResetRun) ∈ t.dev.resets) ∧
    (c.mboxByte = 1 → target.toNat < 32 → Gives (.reset c target) s fun t =>
      Completed 0 c 0 [] s t ∧ (∀ p, p / 4 = target.toNat → (t.core p).inReset = true ∧ (t.core p).stopped = true ∧ ∀ o < tileBytes, t.byteAt (tileKey p o) = 0) ∧
        (∀ p, p / 4 ≠ target.toNat → t.core p = s.core p) ∧
        (⟨.cluster, target.toNat, s.clock.uptime + 20000⟩ : ResetRun) ∈ t.dev.resets) ∧
    (c.mboxByte = 2 → Gives (.reset c target) s fun t =>
      Completed 0 c 0 [] s t ∧ (∀ p < 128, (t.core p).inReset = true ∧ (t.core p).stopped = true ∧ ∀ o < tileBytes, t.byteAt (tileKey p o) = 0) ∧
        (⟨.partition, 0, s.clock.uptime + 400000⟩ : ResetRun) ∈ t.dev.resets) ∧
    (c.mboxByte = 3 → Gives (.reset c target) s (AfterModuleReset 5 s)) ∧
    (3 < c.mboxByte.toNat ∨ c.mboxByte = 0 ∧ s.coreMap.length ≤ target.toNat ∨ c.mboxByte = 1 ∧ 32 ≤ target.toNat → Gives (.reset c target) s fun t => Completed 0 c 0x011C [] s t ∧ Only completing s t))

/-- The reads of mailbox 0 (R402, R411, R355): STATUS writes the identity and state blocks, or 0x0303 into a buffer that cannot hold them;
LOG_FETCH writes the held entries from FIRST_SEQ on, 32 bytes each, oldest first, and leaves them; LOG_CLEAR removes every entry and
leaves SEQ running. FAULT_POLICY (R368): a setting in range is the policy of its code and source from then on; one out of range completes
with 0x0119. -/
def Obligations.StatusLogAndPolicyCommands : Prop :=
  (∀ (s : State) (c : Cmd),
    (Fetched 0 0x0001 c s →
      (s.identityBlock.length + s.stateBlock.length ≤ c.length.toNat → Gives (.status c) s fun t =>
        Completed 0 c 0 (s.identityBlock ++ s.stateBlock) s t ∧ Only completing s t) ∧
      (c.length.toNat < s.identityBlock.length + s.stateBlock.length → Gives (.status c) s fun t =>
        Completed 0 c 0x0303 [] s t ∧ Only completing s t)) ∧
    (∀ seq : Word, Fetched 0 0x0003 c s → Gives (.logFetch c seq) s fun t =>
      Completed 0 c 0 ((((s.log.first ++ s.log.ring).filter fun e => decide (seq ≤ e.seq)).take (c.length.toNat / 32)).flatMap Entry.bytes) s t ∧
        Only completing s t) ∧
    (Fetched 0 0x0004 c s → Gives (.logClear c) s fun t =>
      Completed 0 c 0 [] s t ∧ t.log.first = [] ∧ t.log.ring = [] ∧ t.log.nextSeq = s.log.nextSeq ∧ Only (.log :: completing) s t)) ∧
  (∀ (s : State) (c : Cmd) (code source : BitVec 16) (w : Word) (n : Byte), Fetched 0 0x0007 c s →
    (w ≠ 0 → w.toNat ≤ 86400 → n ≠ 0 → code.toNat < 4096 → source.toNat < 4096 → Gives (.faultPolicy c code source w n) s fun t =>
      Completed 0 c 0 [] s t ∧ t.faults.policy code.toNat source.toNat = (w.toNat, n.toNat) ∧ Only (.policies :: completing) s t) ∧
    ((w = 0 ∨ 86400 < w.toNat ∨ n = 0) → Gives (.faultPolicy c code source w n) s fun t =>
      Completed 0 c 0x0119 [] s t ∧ Only completing s t))

/-- FW_LOAD and CONFIG_LOAD (R414, R416 to R419): an image that passes its checks runs, and HELD then waits for a configuration; one that
fails check k completes with 0x0504 and k in the detail; a configuration that passes its checks is in force and, with firmware running, ends HELD. -/
def Obligations.FirmwareAndConfigurationEndHeld : Prop :=
  ∀ (s : State) (c : Cmd), s.dev.state = .held → s.dev.overvolt = false →
    (∀ image : Bytes, Fetched 0 0x0008 c s → s.dev.firmware = false →
      (s.imageCheck image = 0 → Gives (.fwLoad c image) s fun t =>
        Completed 0 c 0 [] s t ∧ t.dev.firmware = true ∧ t.dev.fw.version = BitVec.ofNat 32 (field image 8 4) ∧ t.dev.state = .held ∧
          t.dev.heldCause = 3 ∧ Only (.dev :: .mgmt :: completing) s t) ∧
      (s.imageCheck image ≠ 0 → Gives (.fwLoad c image) s fun t =>
        Completed 0 c 0x0504 [] s t ∧ (∃ a, Emission.completion 0 a c.tag 0x0504 (BitVec.ofNat 80 (s.imageCheck image)) ∈ t.emitted) ∧
          t.dev.firmware = false ∧ t.dev.heldCause = 2 ∧ Only (.dev :: .mboxes :: logging) s t)) ∧
    (∀ record : Bytes, Fetched 0 0x0009 c s → s.dev.firmware = true → s.dev.thermalHold = false →
      (s.recordCheck record = none → Gives (.configLoad c record) s fun t =>
        Completed 0 c 0 [] s t ∧ t.dev.config = some (parseConfig record) ∧ t.dev.state = .initialising ∧ t.dev.startStep = 5 ∧
          Only (.dev :: .mboxes :: logging) s t) ∧
      (∀ k, s.recordCheck record = some k → Gives (.configLoad c record) s fun t =>
        Completed 0 c k [] s t ∧ t.dev.config = s.dev.config ∧ t.dev.state = .held ∧ Only (.mboxes :: logging) s t))

/-- The meridian counter by command (R30, R35, R402): MERIDIAN_SET is stored while the module is HELD or INITIALISING, MERIDIAN_SLEW is
taken at the root up to 100 ppm; elsewhere they complete with 0x0201, and a larger rate with 0x011C. STANDBY and WAKE (R16, R390, R402):
STANDBY switches the main domain off with all it holds, while the core map stays; WAKE takes start-up from step 5 with the configuration
held, and completes with 0x020F while a trip holds. -/
def Obligations.MeridianSetSlewStandbyAndWake : Prop :=
  (∀ (s : State) (c : Cmd),
    (∀ v : BitVec 64, Fetched 0 0x000A c s →
      (s.dev.firmware = true → s.dev.state = .held ∨ s.dev.state = .initialising → Gives (.meridianSet c v) s fun t =>
        Completed 0 c 0 [] s t ∧ t.mer.stored = some (v.toNat, s.clock.uptime) ∧ t.clock = s.clock ∧ Only (.mer :: completing) s t) ∧
      (s.dev.state ≠ .held → s.dev.state ≠ .initialising → Gives (.meridianSet c v) s fun t => Completed 0 c 0x0201 [] s t ∧ Only completing s t)) ∧
    (∀ rate durationMs : Word, Fetched 0 0x000B c s →
      (s.mer.root = true → rate.toInt.natAbs ≤ 10000 → Gives (.meridianSlew c rate durationMs) s fun t =>
        Completed 0 c 0 [] s t ∧ t.mer.slew = some (rate.toInt, s.clock.uptime, durationMs.toNat) ∧ Only (.mer :: completing) s t) ∧
      (s.mer.root = true → 10000 < rate.toInt.natAbs → Gives (.meridianSlew c rate durationMs) s fun t =>
        Completed 0 c 0x011C [] s t ∧ Only completing s t) ∧
      (s.mer.root = false → Gives (.meridianSlew c rate durationMs) s fun t => Completed 0 c 0x0201 [] s t ∧ Only completing s t))) ∧
  (∀ (s : State) (c : Cmd),
    (Fetched 0 0x000C c s → s.job.bind = none → s.dump.held = none → s.dump.running = none → s.dev.state = .ready → Gives (.standby c) s fun t =>
      Completed 0 c 0 [] s t ∧ t.dev.state = .standby ∧ t.dev.mainOn = false ∧
        (∀ e ∈ t.cores, e.2.strands = [] ∧ e.2.flights = []) ∧ t.coreMap = s.coreMap ∧ t.hubs = [] ∧ t.ports = [] ∧
        (∀ k, t.byteAt k = 0) ∧ t.dev.config = s.dev.config ∧ t.sec = s.sec ∧ t.clock = s.clock) ∧
    (Fetched 0 0x000D c s → s.dev.state = .standby → s.dump.held = none → s.dev.config.isSome = true →
      (s.dev.thermalHold = false → Gives (.wake c) s fun t =>
        Completed 0 c 0 [] s t ∧ t.dev.state = .initialising ∧ t.dev.startStep = 5 ∧ t.dev.config = s.dev.config ∧
          Only (.dev :: .mboxes :: logging) s t) ∧
      (s.dev.thermalHold = true → Gives (.wake c) s fun t => Completed 0 c 0x020F [] s t ∧ Only completing s t)))

/-- CANCEL (R398) acts on the oldest command in flight with the tag: one whose work has not begun, or a PLAN_DISPATCH whose first frame has
not, completes with 0x0703; one whose work has begun does not, and the CANCEL completes with 0x0201; with no such command, with 0x011C. The rings have room for the completions.
A CARTOUCHE_FETCH that waits for its digests (R428) is left to the statement of its own row. -/
def Obligations.CancelEndsCommandsNotBegun : Prop :=
  ∀ (s : State) (c : Cmd) (m : Nat) (tag : Word), Fetched 0 0x000E c s → c.mboxByte.toNat = m → (s.mbox m).dropped = [] → (s.mbox m).noRoom = false →
    (∀ f : InFlightCmd, 0 < m → m < 7 → (s.mbox m).inFlight.find? (fun x => x.tag = tag) = some f →
      (f.begun = false → Gives (.cancel c tag) s fun t =>
        Completed 0 c 0 [] s t ∧ (t.mbox m).inFlight = dropFirst (fun x => x.tag = tag) (s.mbox m).inFlight ∧
          (∃ a d, Emission.completion m a tag 0x0703 d ∈ t.emitted) ∧ Only (.job :: .sec :: completing) s t) ∧
      (∀ d ∈ s.job.dispatches, m = 1 → f.opcode = 0x0105 → d.tag = tag → d.begun = false → Gives (.cancel c tag) s fun t =>
        Completed 0 c 0 [] s t ∧ (t.mbox 1).inFlight = dropFirst (fun x => x.tag = tag) (s.mbox 1).inFlight ∧
          (∃ a e, Emission.completion 1 a tag 0x0703 e ∈ t.emitted) ∧
          t.job = { s.job with dispatches := dropFirst (fun x => x.tag = tag && !x.begun) s.job.dispatches } ∧ Only (.job :: completing) s t) ∧
      (f.begun = true → (∀ d ∈ s.job.dispatches, m = 1 → f.opcode = 0x0105 → d.tag = tag → d.begun = true) →
        (∀ x ∈ s.sec.waiting, m = 4 → x.cmd.tag ≠ tag) → Gives (.cancel c tag) s fun t => Completed 0 c 0x0201 [] s t ∧ Only completing s t)) ∧
    (m = 0 → tag = c.tag → Gives (.cancel c tag) s fun t => Completed 0 c 0x0201 [] s t ∧ Only completing s t) ∧
    ((s.mbox m).inFlight.find? (fun x => x.tag = tag) = none ∨ 6 < m → Gives (.cancel c tag) s fun t =>
      Completed 0 c 0x011C [] s t ∧ Only completing s t)

/-! ## Mailbox 1: the job and its plans -/

/-- JOB_BIND (R39, R207, R390, R403): in READY, with the parameters in range and every default asked for, the job is bound with G the
larger of 40 ns and P/50, a horizon of 128 frames and 2 retries; the module is RUNNING, hub caches read 0, the job's counters and the loss
scale start anew. With a job bound it completes with 0x0211, and with a period out of range with 0x011C. JOB_UNBIND and the end of the
binding (R390, R403): the unbind is accepted in RUNNING and stays in flight while the module drains; when nothing is left to wait for, the
binding ends: READY, the command completes with 0, and plans, gazetteer, chart and tensors are gone. -/
def Obligations.JobsBindUnbindAndEnd : Prop :=
  (∀ (s : State) (c : Cmd) (p : BindParams), Fetched 1 0x0101 c s →
    (s.dev.state = .ready → s.job.bind = none → 2000 ≤ p.tickPeriod.toNat → p.tickPeriod.toNat ≤ 67108864 →
      p.baseTick.toNat % p.tickPeriod.toNat = 0 → p.jobTag ≠ 0 → p.guardBand = 0 → p.horizon = 0 → p.retries = 0 → p.abortSeal = 0 →
      Gives (.jobBind c p) s fun t =>
        Completed 1 c 0 [] s t ∧ t.dev.state = .running ∧
          (∃ b, t.job.bind = some b ∧ b.period = p.tickPeriod.toNat ∧ b.guardNs = max 40 (ceilDiv p.tickPeriod.toNat 50) ∧
            b.baseTick = p.baseTick.toNat ∧ b.jobTag = p.jobTag ∧ b.horizon = 128 ∧ b.retries = 2) ∧
          t.job.dispatches = [] ∧ t.job.attempts = 0 ∧ t.job.aborts = 0 ∧ t.job.overruns = 0 ∧ t.regs.lossScale = 0x3F800000 ∧
          t.regs.latchedStep = 0xFFFFFFFF ∧ (∀ h < 8, ∀ o < hubcBytes, t.byteAt (hubcKey h o) = 0) ∧
          (∀ k < hbmEnd, t.byteAt k = s.byteAt k) ∧ t.cores = s.cores ∧ t.links = s.links ∧ t.clock = s.clock) ∧
    (s.job.bind.isSome = true → Gives (.jobBind c p) s fun t => Completed 1 c 0x0211 [] s t ∧ Only completing s t) ∧
    (s.dev.state = .ready → s.job.bind = none → p.tickPeriod.toNat < 2000 ∨ 67108864 < p.tickPeriod.toNat → Gives (.jobBind c p) s fun t =>
      Completed 1 c 0x011C [] s t ∧ Only completing s t)) ∧
  (∀ (s : State) (c : Cmd),
    (Fetched 1 0x0102 c s → s.dev.state = .running → s.job.dispatches = [] → Gives (.jobUnbind c) s fun t =>
      t.dev.state = .draining ∧ t.job.draining = some c.tag ∧ t.job.bind = s.job.bind ∧ (∃ f, (t.mbox 1).inFlight = [f] ∧ f.tag = c.tag) ∧
        Only (.dev :: .job :: .mboxes :: logging) s t) ∧
    (∀ f, s.drained = true → s.job.hangEnd = false → s.topo.reshape = none → s.job.draining = some c.tag → s.job.score = none →
      (s.mbox 1).inFlight = [f] → f.tag = c.tag → (s.mbox 1).dropped = [] → (s.mbox 1).noRoom = false → s.cofin.up = true → s.sec.waiting = [] →
      Gives .bindingEnd s fun t =>
        Completed 1 c 0 [] s t ∧ t.dev.state = .ready ∧ t.job.bind = none ∧ t.job.tensors = [] ∧ t.job.dispatches = [] ∧
          (∀ k < 4, Tab.get {} k t.job.slots = {}) ∧ t.topo = {} ∧ (∀ h < 8, ∀ o < hubcBytes, t.byteAt (hubcKey h o) = 0) ∧
          t.links = s.links ∧ t.ports = s.ports ∧ t.clock = s.clock))

/-- PLAN_LOAD and the end of its translation (R160 to R164): a plan that passes every check is being loaded, and its command stays in
flight; when translation ends the plan is resident, its constants stand in every hub's near memory and the command completes with the
report; where another level became resident meanwhile it completes with 0x0204 (the model's choice, log entries 90 and 148). A plan that
fails a check completes with that check's status, and nothing is loaded. PLAN_EVICT (R161, R164): the slot of a plan that no dispatch uses
is empty afterwards; with a dispatch pending it completes with 0x0203. -/
def Obligations.PlansLoadTranslateAndLeave : Prop :=
  (∀ (s : State) (c : Cmd) (fileLen : Word) (buffer : Bytes),
    (Fetched 1 0x0103 c s → c.mboxByte.toNat < 4 → s.job.bind.isSome = true → s.slotBusy c.mboxByte.toNat = false → fileLen.toNat ≤ c.length.toNat →
      (∀ e, s.loadPlan c.mboxByte.toNat (buffer.take fileLen.toNat) = .error e → Gives (.planLoad c fileLen buffer) s fun t =>
        Completed 1 c e.status [] s t ∧ t.job.slots = s.job.slots ∧ Only completing s t) ∧
      (∀ r, s.loadPlan c.mboxByte.toNat (buffer.take fileLen.toNat) = .ok (r, false) →
        roundUp fileLen.toNat 4096 + (s.loadReport r).length ≤ c.length.toNat → Gives (.planLoad c fileLen buffer) s fun t =>
          (∃ l, (Tab.get {} c.mboxByte.toNat t.job.slots).loading = some l ∧ l.resident = r ∧ l.tag = c.tag ∧ l.output = s.loadReport r) ∧
            (Tab.get {} c.mboxByte.toNat t.job.slots).plan = (Tab.get {} c.mboxByte.toNat s.job.slots).plan ∧
            (∃ f, (t.mbox 1).inFlight = [f] ∧ f.tag = c.tag) ∧ Only [.job, .mboxes] s t)) ∧
    (∀ (slot : Fin 4) (l : Loading) (f : InFlightCmd), (Tab.get {} slot.val s.job.slots).loading = some l → l.mailbox = 1 → l.tag = c.tag → l.output ≠ [] →
      (s.mbox 1).inFlight = [f] → f.tag = c.tag → (s.mbox 1).dropped = [] → (s.mbox 1).noRoom = false → s.cofin.up = true →
      (s.sameLevel l.resident.plan slot = true → s.codeFits l.resident.plan l.resident.role slot = true →
        (l.resident.plan.constants.getD []).length ≤ 2 ^ 40 → Gives (.planTranslationDone slot) s fun t =>
        t.resident slot.val = some l.resident ∧ (Tab.get {} slot.val t.job.slots).loading = none ∧
          (∃ d, Emission.completion 1 d c.tag 0 0 ∈ t.emitted) ∧ (t.mbox 1).inFlight = [] ∧ (∀ e ∈ hostPieces l.buffer l.output, e ∈ t.emitted) ∧
          (∀ h < 8, ∀ i < (l.resident.plan.constants.getD []).length,
            t.byteAt (constKey h slot i) = (l.resident.plan.constants.getD []).getD i 0) ∧
          (∀ k, (∀ h < 8, ∀ i < (l.resident.plan.constants.getD []).length, k ≠ constKey h slot i) → t.byteAt k = s.byteAt k) ∧
          Only (.job :: .cores :: .mem :: .poison :: .hubs :: .hbmStacks :: completing) s t) ∧
      (s.sameLevel l.resident.plan slot = false → Gives (.planTranslationDone slot) s fun t =>
        (∃ a d, Emission.completion 1 a c.tag 0x0204 d ∈ t.emitted) ∧ (Tab.get {} slot.val t.job.slots).loading = none ∧
          t.resident slot.val = s.resident slot.val ∧ Only (.job :: completing) s t))) ∧
  (∀ (s : State) (c : Cmd) (r : Resident), Fetched 1 0x0104 c s → c.mboxByte.toNat < 4 → s.job.bind.isSome = true →
    s.resident c.mboxByte.toNat = some r →
    (s.slotBusy c.mboxByte.toNat = false → Gives (.planEvict c) s fun t =>
      Completed 1 c 0 [] s t ∧ Tab.get {} c.mboxByte.toNat t.job.slots = {} ∧
        (∀ k, k ≠ c.mboxByte.toNat → Tab.get {} k t.job.slots = Tab.get {} k s.job.slots) ∧ Only (.job :: .cores :: completing) s t) ∧
    (s.slotBusy c.mboxByte.toNat = true → Gives (.planEvict c) s fun t => Completed 1 c 0x0203 [] s t ∧ Only completing s t))

/-- PLAN_DISPATCH (R44, R157, R168): a dispatch that passes every check, the first of its step, latches the page and waits for its frame
with its command in flight; one whose contour cut has passed completes with 0x0205; on a suspended job it completes with 0x020C; while the
counter is unlocked or acquiring, with 0x0201 (R36). -/
def Obligations.PlanDispatchIsAcceptedOrRefused : Prop :=
  ∀ (s : State) (c : Cmd) (frame : BitVec 64) (step : Word) (phaseSeq : BitVec 16) (b : Bind) (r : Resident),
    Fetched 1 0x0105 c s → c.mboxByte.toNat < 4 → s.job.bind = some b → s.resident c.mboxByte.toNat = some r → s.topo.reshape = none →
    (s.job.suspended = false → s.dev.state = .running → s.mer.lock ≠ 0 → s.mer.lock ≠ 1 →
      (s.clock.meridian : Int) ≤ b.tick ((frame.toNat : Int) - b.horizon) → s.slotBusy c.mboxByte.toNat = false →
      s.dispatchCheck r = .ok () → s.job.dispatches = [] → s.pageFault step = none → Gives (.planDispatch c frame step phaseSeq) s fun t =>
        (∃ d, t.job.dispatches = [d] ∧ d.tag = c.tag ∧ d.slot = c.mboxByte.toNat ∧ d.first = frame.toNat ∧ d.step = step ∧ d.phaseSeq = phaseSeq) ∧
          t.job.dispatched = true ∧ t.regs.latchedStep = step ∧ (∃ f, (t.mbox 1).inFlight = [f] ∧ f.tag = c.tag) ∧
          t.job.bind = s.job.bind ∧ t.links = s.links ∧ t.clock = s.clock) ∧
    (s.job.suspended = false → s.dev.state = .running → s.mer.lock ≠ 0 → s.mer.lock ≠ 1 → b.tick ((frame.toNat : Int) - b.horizon) < s.clock.meridian →
      Gives (.planDispatch c frame step phaseSeq) s fun t => Completed 1 c 0x0205 [] s t ∧ t.job.dispatches = s.job.dispatches) ∧
    (s.job.suspended = false → s.mer.lock = 0 ∨ s.mer.lock = 1 → Gives (.planDispatch c frame step phaseSeq) s fun t =>
      Completed 1 c 0x0201 [] s t ∧ Only completing s t) ∧
    (s.job.suspended = true → Gives (.planDispatch c frame step phaseSeq) s fun t => Completed 1 c 0x020C [] s t ∧ Only completing s t)

/-- SCOREBOARD_RUN (R70 to R72, R409): in READY, a scoreboard plan that passes its checks and whose cores are free puts them into scoreboard
mode with their queues empty, and its command stays in flight while a strand has work; outside READY it completes with 0x0201. -/
def Obligations.ScoreboardRunTakesItsCores : Prop :=
  ∀ (s : State) (c : Cmd) (fileLen : Word) (buffer : Bytes), Fetched 6 0x0603 c s →
    (∀ r, s.dev.state = .ready → s.scoring = false → fileLen.toNat ≤ c.length.toNat → s.loadScore (buffer.take fileLen.toNat) = .ok r →
      r.plan.twin = false → s.scoreReady r = true →
      ∀ n < 120, ∀ b x, s.coreMap.Nodup → s.coreMap.length = 120 → r.blockOf n = some b → x < 64 → r.plan.stream r.role b x ≠ [] → Gives (.scoreboardRun c fileLen buffer) s fun t =>
        t.job.score = some c.tag ∧ (t.core (s.phys n)).scoreboard = true ∧ (t.core (s.phys n)).queues = [] ∧
          (t.strand (s.phys n) x).st = .ready ∧ (t.strand (s.phys n) x).work = true ∧ t.resident 4 = some r ∧
          (∃ f, (t.mbox 6).inFlight = [f] ∧ f.tag = c.tag) ∧ Only [.job, .cores, .mem, .poison, .hubs, .hbmStacks, .mboxes] s t) ∧
    (s.dev.state ≠ .ready → Gives (.scoreboardRun c fileLen buffer) s fun t =>
      Completed 6 c 0x0201 [] s t ∧ Only completing s t)

/-! ## Mailbox 2: memory, tensors and the gateway -/

/-- MEMORY_LAYOUT and ARENA_SET (R190, R404): with no job bound R_S is set to a multiple of 4,096 rows up to 520,192, and with one bound
MEMORY_LAYOUT completes with 0x0201; with one bound the spread arena, a hub's near arena or the inset arena is set where it fits its
range, and one that does not fit completes with 0x0304 and changes nothing. TENSOR_REGISTER and TENSOR_UNREGISTER (R404, R405): a
registration in range whose gradient buffers and slices fit is held, and its storage reads 0; unregistering before the first dispatch
removes it; a TENSOR that is registered already completes with 0x011C. -/
def Obligations.LayoutArenasAndTensors : Prop :=
  (∀ (s : State) (c : Cmd),
    (∀ rs : Word, Fetched 2 0x0201 c s →
      (s.job.bind = none → rs.toNat ≤ 520192 → rs.toNat % 4096 = 0 → Gives (.memoryLayout c rs) s fun t =>
        Completed 2 c 0 [] s t ∧ t.rowSplit = rs.toNat ∧ Only (.rowSplit :: completing) s t) ∧
      (s.job.bind.isSome = true → Gives (.memoryLayout c rs) s fun t => Completed 2 c 0x0201 [] s t ∧ Only completing s t)) ∧
    (∀ (hub : Byte) (n : BitVec 64), Fetched 2 0x0202 c s → s.job.bind.isSome = true →
      (n.toNat ≤ 744 * s.rowSplit * 4096 → Gives (.arenaSet c 1 hub n) s fun t =>
        Completed 2 c 0 [] s t ∧ t.job.arenas.spread = some n.toNat ∧ t.job.arenas.near = s.job.arenas.near ∧ t.job.tensors = s.job.tensors ∧
          Only (.job :: completing) s t) ∧
      (744 * s.rowSplit * 4096 < n.toNat → Gives (.arenaSet c 1 hub n) s fun t => Completed 2 c 0x0304 [] s t ∧ Only completing s t) ∧
      (hub.toNat < 8 → (s.onJob fun j => { j with arenas := j.arenas.put 2 hub.toNat n.toNat }).nearUsed hub.toNat ≤ s.nearBytes →
        Gives (.arenaSet c 2 hub n) s fun t =>
          Completed 2 c 0 [] s t ∧ Tab.get 0 hub.toNat t.job.arenas.near = n.toNat ∧ t.job.arenas.spread = s.job.arenas.spread ∧
            Only (.job :: completing) s t) ∧
      (hub.toNat < 8 → (s.onJob fun j => { j with arenas := j.arenas.put 6 hub.toNat n.toNat }).nearUsed hub.toNat ≤ s.nearBytes →
        Gives (.arenaSet c 6 hub n) s fun t =>
          Completed 2 c 0 [] s t ∧ t.job.arenas.inset = some (hub.toNat, n.toNat) ∧ t.job.arenas.spread = s.job.arenas.spread ∧
            t.job.arenas.near = s.job.arenas.near ∧ Only (.job :: completing) s t) ∧
      ∀ space : Byte, (space = 2 ∨ space = 6) → hub.toNat < 8 →
        s.nearBytes < (s.onJob fun j => { j with arenas := j.arenas.put space.toNat hub.toNat n.toNat }).nearUsed hub.toNat →
        Gives (.arenaSet c space hub n) s fun t => Completed 2 c 0x0304 [] s t ∧ Only completing s t)) ∧
  (∀ (s : State) (c : Cmd), s.job.bind.isSome = true → s.topo.chart.isSome = true →
    (∀ p : TensorParams, Fetched 2 0x0203 c s → (tensorOf p).inRange = true →
      (s.tensor? p.tensor.toNat = none → s.gradFits (tensorOf p) = true →
        (s.onJob fun j => { j with tensors := j.tensors ++ [tensorOf p] }).nearUsed p.hub.toNat ≤ s.nearBytes → Gives (.tensorRegister c p) s fun t =>
          Completed 2 c 0 [] s t ∧ t.tensor? p.tensor.toNat = some (tensorOf p) ∧
            (∀ dk area o, (dirParts dk).1 = p.tensor.toNat → area < 2 → o < 4096 → t.byteAt (areaKey dk area + o) = 0) ∧
            (∀ k < 2 ^ 100, t.byteAt k = s.byteAt k) ∧ Only (.job :: .mem :: .poison :: .dir :: completing) s t) ∧
      ((s.tensor? p.tensor.toNat).isSome = true → Gives (.tensorRegister c p) s fun t => Completed 2 c 0x011C [] s t ∧ Only completing s t)) ∧
    (∀ id : BitVec 16, Fetched 2 0x0204 c s → s.job.dispatched = false → (s.tensor? id.toNat).isSome = true →
      Gives (.tensorUnregister c id) s fun t =>
        Completed 2 c 0 [] s t ∧ t.tensor? id.toNat = none ∧ (∀ n, n ≠ id.toNat → t.tensor? n = s.tensor? n) ∧
          Only (.job :: .mem :: .poison :: .dir :: completing) s t))

/-- Byte `off` of the hub cache that an address of the HUBC space names, and of the spread range (R135, R191). -/
def hubcByte (a : MemAddr) (i : Nat) : Nat := hubcKey (natBits a.base.toNat 39 32) (natBits a.base.toNat 24 0 + i)
def spreadByte (a : MemAddr) (i : Nat) : Nat :=
  hbmKey (spreadPlace (a.base.toNat + i)).1 (spreadPlace (a.base.toNat + i)).2.1 (spreadPlace (a.base.toNat + i)).2.2 ((a.base.toNat + i) % 4096)

/-- WRITE stores its buffer at its address and nowhere else (R135, R191, R404): byte i at the i-th byte of the hub cache, or of the spread
range as the interleave places it, where no stack stands past its critical temperature (R205). READ answers the bytes at its address in a
hub cache, or in the spread range while its channels serve requests, where none is poisoned, and changes no memory (R135, R191, R197,
R404); beyond the space it completes with 0x0304. -/
def Obligations.WriteAndReadReachTheirBytes : Prop :=
  (∀ (s : State) (c : Cmd) (a : MemAddr) (data : Bytes), Fetched 2 0x0205 c s → a.target.toNat = noRank →
    (a.space.toNat = spHubc → natBits a.base.toNat 39 32 < 8 → natBits a.base.toNat 24 0 + data.length ≤ hubcBytes →
      Gives (.write c a data .none) s fun t =>
        Completed 2 c 0 [] s t ∧ (∀ i < data.length, t.byteAt (hubcByte a i) = data.getD i 0) ∧
          (∀ k, (∀ i < data.length, k ≠ hubcByte a i) → t.byteAt k = s.byteAt k) ∧ Only (.mem :: .poison :: completing) s t) ∧
    (a.space.toNat = spSpread → s.rowSplit ≤ 524288 → a.base.toNat + data.length ≤ s.job.arenas.spread.getD 0 →
      a.base.toNat + data.length ≤ 744 * s.rowSplit * 4096 → (∀ n < 24, (s.stack n).stopped = false) → Gives (.write c a data .none) s fun t =>
        Completed 2 c 0 [] s t ∧ (∀ i < data.length, t.byteAt (spreadByte a i) = data.getD i 0) ∧
          (∀ k, (∀ i < data.length, k ≠ spreadByte a i) → t.byteAt k = s.byteAt k) ∧ Only (.mem :: .poison :: .hubs :: .hbmStacks :: completing) s t)) ∧
  (∀ (s : State) (c : Cmd) (a : MemAddr), Fetched 2 0x0206 c s → a.target.toNat = noRank →
    (a.space.toNat = spSpread → s.rowSplit ≤ 524288 →
      (a.base.toNat + c.length.toNat ≤ s.job.arenas.spread.getD 0 → a.base.toNat + c.length.toNat ≤ 744 * s.rowSplit * 4096 → s.hbmCalm = true →
        (∀ b, Tab.get false b s.poison = false) → (∀ h, (s.hub h).blind = []) → Gives (.read c a false .none) s fun t =>
          Completed 2 c 0 ((List.range c.length.toNat).map fun i => s.byteAt (spreadByte a i)) s t ∧ Only completing s t) ∧
      (s.areaSize .spread < a.base.toNat + c.length.toNat → Gives (.read c a false .none) s fun t =>
        Completed 2 c 0x0304 [] s t ∧ Only completing s t)) ∧
    (a.space.toNat = spHubc → natBits a.base.toNat 39 32 < 8 → (natBits a.base.toNat 24 0 + c.length.toNat ≤ hubcBytes → (∀ b, Tab.get false b s.poison = false) → (∀ h, (s.hub h).blind = []) →
      Gives (.read c a false .none) s fun t =>
        Completed 2 c 0 ((List.range c.length.toNat).map fun i => s.byteAt (hubcByte a i)) s t ∧ Only completing s t) ∧
     (hubcBytes < natBits a.base.toNat 24 0 + c.length.toNat → Gives (.read c a false .none) s fun t =>
      Completed 2 c 0x0304 [] s t ∧ Only completing s t)))

/-- The gateway's settings (R232 to R235, R404) on a port that is up: addresses and the default UDP port 19,540; a tunnel with the port's UDP port
and an MTU of 9,000 where it states none, replacing one of its index, and its removal; queue pairs made not ready, made ready and destroyed. -/
def Obligations.GatewaySettingsTakeEffect : Prop :=
  ∀ (s : State) (c : Cmd) (g : Fin 2), s.gwState g = 2 →
    (∀ p : GwPortParams, Fetched 2 0x0207 c s → p.port.toNat = g → p.plen.toNat ≤ (if p.ipv6 then 128 else 32) → p.pfc = 0 → p.vlan.toNat ≤ 4095 →
      Gives (.gwPort c p) s fun t =>
        Completed 2 c 0 [] s t ∧ (t.gw g).address = p.address ∧ (t.gw g).plen = p.plen ∧ (t.gw g).ipv6 = p.ipv6 ∧ (t.gw g).vlan = p.vlan ∧
          (t.gw g).udpPort = (if p.udpPort = 0 then 19540 else p.udpPort) ∧ (t.gw g).tunnels = (s.gw g).tunnels ∧
          (t.gw g).gids = p.address :: (s.gw g).gids.drop 1 ∧
          (∀ k, k ≠ g.val → t.gw k = s.gw k) ∧ Only (.gws :: completing) s t) ∧
    (∀ p : GwTunnelParams, Fetched 2 0x0208 c s → p.port.toNat = g →
      (p.mtu = 0 → (s.gw g).tunnels.length < 1024 → Gives (.gwTunnelAdd c p) s fun t =>
        Completed 2 c 0 [] s t ∧
          (∃ x ∈ (t.gw g).tunnels, x.index = p.index.toNat ∧ x.remote = p.remote ∧ x.jobTag = p.jobTag ∧ x.mtu = 9000 ∧
            x.remotePort = (if p.remotePort = 0 then (s.gw g).udpPort else p.remotePort) ∧ x.unacked = []) ∧
          (∀ x ∈ (s.gw g).tunnels, x.index ≠ p.index.toNat → x ∈ (t.gw g).tunnels) ∧ Only (.gws :: completing) s t) ∧
      ((s.gw g).tunnels.any (fun x => x.index = p.index.toNat) = true → Gives (.gwTunnelRemove c p) s fun t =>
        Completed 2 c 0 [] s t ∧ (t.gw g).tunnels = (s.gw g).tunnels.filter (fun x => x.index ≠ p.index.toNat) ∧ Only (.gws :: completing) s t)) ∧
    (∀ p : GwQpParams, Fetched 2 0x0209 c s → p.port.toNat = g → p.gid.toNat < 16 → 3 ≤ p.mtuCode.toNat → p.mtuCode.toNat ≤ 5 →
      ((s.gw g).qps.length < 4096 → Gives (.gwQpCreate c p) s fun t =>
        Completed 2 c 0 [] s t ∧ (t.gw g).qps = (s.gw g).qps ++ [qpOf p (s.gw g).nextQpn false [] 0] ∧ (t.gw g).nextQpn = (s.gw g).nextQpn + 1 ∧
          Only (.gws :: completing) s t) ∧
      (∀ q, (s.gw g).qps = [q] → q.qpn = p.qpn →
        (Gives (.gwQpReady c p) s fun t =>
          Completed 2 c 0 [] s t ∧ (t.gw g).qps = [qpOf p q.qpn true q.received q.cnps] ∧ Only (.gws :: completing) s t) ∧
        Gives (.gwQpDestroy c p) s fun t => Completed 2 c 0 [] s t ∧ (t.gw g).qps = [] ∧ Only (.gws :: completing) s t))

/-- Distinct bytes of the spread range have distinct places, all inside the 8 hubs, 93 channels and R_S rows (R190, R191). -/
def Obligations.SpreadInterleaveIsInjective : Prop :=
  ∀ a b rs : Nat, a < 744 * rs * 4096 → b < 744 * rs * 4096 →
    ((spreadPlace a).1 < 8 ∧ (spreadPlace a).2.1 < 93 ∧ (spreadPlace a).2.2 < rs) ∧
      (spreadPlace a = spreadPlace b → a % 4096 = b % 4096 → a = b)

/-- The near interleave (R192): an offset's granule g lies in row R_S + g / 93 of hub channel (g + fold7(g / 93)) mod 93, where fold7 is the xor
of 7-bit pieces; each aligned run of 93 granules places one on each channel of the hub; and the worked example's two spread granules. -/
def Obligations.NearInterleavePlacesGranules : Prop :=
  (∀ (s : State) (h a : Nat), s.areaByteKey (.near h) a =
    hbmKey h ((a / 4096 + fold7 (a / 4096 / 93)) % 93) (s.rowSplit + a / 4096 / 93) (a % 4096)) ∧
    (∀ r < 2 ^ 64, fold7 r = ((List.range 10).map fun i => r / 2 ^ (7 * i) % 128).foldl Nat.xor 0) ∧
    (∀ rs j k : Nat, k < 93 → ∃ g, 93 * j ≤ g ∧ g < 93 * (j + 1) ∧ (nearPlace rs (4096 * g)).1 = k ∧
      ∀ x, 93 * j ≤ x → x < 93 * (j + 1) → (nearPlace rs (4096 * x)).1 = k → x = g) ∧
    spreadPlace 0x12345000 = (1, 27, 100) ∧ spreadPlace 0x12346000 = (2, 27, 100)

/-! ## Mailboxes 4, 5 and 6 -/

/-- Licences and identity (R407, R421 to R424): a licence that passes its checks is installed and listed from then on; one that fails check
k completes with 0x0505, and one of a kind already installed completes with 0 and changes nothing; LICENCE_LIST writes the installed records in order of KIND; IDENTITY_CERT and ATTEST write the chain and a signed
record of 256 bytes, and change nothing but the count of signatures. -/
def Obligations.LicencesAndIdentity : Prop :=
  ∀ (s : State) (c : Cmd),
    (∀ data : Bytes, Fetched 4 0x0401 c s →
      (s.licenceCheck data = 0 → s.licensed (field data 5 1) = false → Gives (.licenceInstall c data) s fun t =>
        Completed 4 c 0 [] s t ∧ Tab.get [] (field data 5 1) t.sec.licences = data.take 192 ∧
          (∀ k, k ≠ field data 5 1 → Tab.get [] k t.sec.licences = Tab.get [] k s.sec.licences) ∧ (field data 5 1 ≠ 1 → t.links = s.links) ∧
          (∀ n, (n < 16 ∨ 24 ≤ n) → t.link n = s.link n) ∧ Only (.sec :: .links :: .mboxes :: logging) s t) ∧
      (s.licenceCheck data = 0 → s.licensed (field data 5 1) = true → Gives (.licenceInstall c data) s fun t =>
        Completed 4 c 0 [] s t ∧ Only completing s t) ∧
      (s.licenceCheck data ≠ 0 → Gives (.licenceInstall c data) s fun t =>
        Completed 4 c 0x0505 [] s t ∧ t.sec = s.sec ∧ Only (.mboxes :: logging) s t)) ∧
    (Fetched 4 0x0402 c s → 768 ≤ c.length.toNat → (∀ k ∈ [1, 2, 3, 4], (Tab.get [] k s.sec.licences).length ≤ 192) → Gives (.licenceList c) s fun t =>
      Completed 4 c 0 (Tab.get [] 1 s.sec.licences ++ Tab.get [] 2 s.sec.licences ++ Tab.get [] 3 s.sec.licences ++ Tab.get [] 4 s.sec.licences) s t ∧
        Only completing s t) ∧
    (Fetched 4 0x0403 c s → Gives (.identityCert c) s fun t =>
      (if certificateChain.length ≤ c.length.toNat then Completed 4 c 0 certificateChain s t else Completed 4 c 0x0303 [] s t) ∧
        Only completing s t) ∧
    (∀ nonce : Bytes, Fetched 4 0x0404 c s → 256 ≤ c.length.toNat → Gives (.attest c nonce) s fun t =>
      (∃ sig : BitVec 512, Completed 4 c 0 (s.attestation nonce ++ leBytes 64 sig.toNat) s t) ∧ Only (.sec :: completing) s t ∧
        t.sec = { s.sec with signed := s.sec.signed + 1 })

/-- POWER_CONFIG and TELEMETRY_SNAPSHOT (R335, R391, R408): settings in range apply at once with no job bound and wait for the next deadline
with one, 0 standing for 3 % and 1,000 µs; a setting out of range completes with 0x0118 and changes nothing; the snapshot is the mirror as last refreshed. -/
def Obligations.PowerConfigAndTelemetrySnapshot : Prop :=
  ∀ (s : State) (c : Cmd),
    (∀ (cap : BitVec 16) (flags hyst : Byte) (hold : Word), Fetched 5 0x0501 c s →
      (1000 ≤ cap.toNat → cap.toNat ≤ 4800 → s.job.bind = none → Gives (.powerConfig c cap flags 0 0) s fun t =>
        Completed 5 c 0 [] s t ∧ t.power.capW = cap.toNat ∧ t.power.fallbackEn = flags.getLsbD 0 ∧ t.power.hystPct = 3 ∧ t.power.floorHoldUs = 1000 ∧
          t.power.floor = s.power.floor ∧ t.power.causes = s.power.causes ∧ Only (.power :: completing) s t) ∧
      (1000 ≤ cap.toNat → cap.toNat ≤ 4800 → s.job.bind.isSome = true → Gives (.powerConfig c cap flags 0 0) s fun t =>
        Completed 5 c 0 [] s t ∧ t.power.capW = s.power.capW ∧ t.power.next = some (cap.toNat, flags.getLsbD 0, 3, 1000) ∧
          Only (.power :: completing) s t) ∧
      ((cap.toNat < 1000 ∨ 4800 < cap.toNat ∨ 10 < hyst.toNat ∨ (0 < hold.toNat ∧ hold.toNat < 100) ∨ 100000 < hold.toNat) →
        Gives (.powerConfig c cap flags hyst hold) s fun t =>
        Completed 5 c 0x0118 [] s t ∧ Only completing s t)) ∧
    (Fetched 5 0x0502 c s → 8320 ≤ c.length.toNat → Gives (.telemetrySnapshot c) s fun t =>
      Completed 5 c 0 ((List.range 8320).map fun i => Tab.get 0 (0x2000 + i) s.regs.mirror) s t ∧ Only completing s t)

/-- A held dump is fetched and discarded (R376, R377, R412): a range of its summary, or of the full dump where it has one, is fetched
without letting it go, and opens with its header, whose widths and places are the model's (log entry 143); DUMP_DISCARD lets it go; with
none held, or no full dump, they complete with 0x0210. DUMP, DUMP_REGION and CORE_INSPECT (R63, R375, R377, R409): DUMP begins a capture
and stays in flight until it ends; with one held it logs DUMP_SKIPPED and completes with 0x0201; one worked while a capture runs is a
second trigger, which follows that capture (log entry 142); a region is placed in a hub's near range where it fits; CORE_INSPECT writes a
core's record and changes nothing. -/
def Obligations.DumpAndInspectCommands : Prop :=
  (∀ (s : State) (c : Cmd) (r : DumpRec), s.dump.moduleHold = none →
    (∀ (offset : BitVec 64) (summary : Bool), Fetched 0 0x0005 c s → c.mboxByte.toNat = (if summary then 1 else 0) →
      offset.toNat + c.length.toNat ≤ (if summary then 2 ^ 20 else 2 ^ 28) →
      (s.dump.held = some r → (summary = false → r.summaryOnly = false) → Gives (.dumpFetch c offset) s fun t =>
        (∃ d, d.length = c.length.toNat ∧ Completed 0 c 0 d s t ∧
          ∀ i < d.length, offset.toNat + i < 4096 → d.getD i 0 = (r.header summary).getD (offset.toNat + i) 0) ∧
          t.dump.held = some r ∧ t.dump.fetched = true ∧ Only (.dump :: completing) s t) ∧
      (s.dump.held = none ∨ s.dump.held = some r ∧ summary = false ∧ r.summaryOnly = true → Gives (.dumpFetch c offset) s fun t =>
        Completed 0 c 0x0210 [] s t ∧ Only completing s t)) ∧
    (Fetched 0 0x0006 c s →
      (s.dump.held = some r → Gives (.dumpDiscard c) s fun t => Completed 0 c 0 [] s t ∧ t.dump.held = none ∧ Only (.dump :: completing) s t) ∧
      (s.dump.held = none → Gives (.dumpDiscard c) s fun t => Completed 0 c 0x0210 [] s t ∧ Only completing s t))) ∧
  (∀ (s : State) (c : Cmd),
    (Fetched 6 0x0601 c s →
      (s.dump.held = none → s.dump.running = none → s.dev.state = .ready → Gives (.dump c) s fun t =>
        (∃ r, t.dump.running = some r ∧ r.trigger = .command ∧ r.seq = s.log.lastSeq ∧ r.state = .ready) ∧ t.dump.back = .ready ∧
          t.dump.tag = some c.tag ∧ t.dev.state = .dumping ∧ (∃ f, (t.mbox 6).inFlight = [f] ∧ f.tag = c.tag) ∧
          Only (.dump :: .dev :: .mboxes :: logging) s t) ∧
      (s.dump.held.isSome = true → Quiet s → Gives (.dump c) s fun t =>
        Completed 6 c 0x0201 [] s t ∧ Logged .dumpSkipped srcControl 0 s t ∧ Only (.mboxes :: logging) s t) ∧
      (∀ r, s.dump.held = none → s.dump.running = some r → Gives (.dump c) s fun t =>
        Completed 6 c 0x0201 [] s t ∧ t.dump = { s.dump with skipped := true } ∧ Only (.dump :: completing) s t)) ∧
    (∀ hub : Byte, Fetched 6 0x0602 c s →
      (hub.toNat < 8 → (s.onDump fun d => { d with region := none }).nearUsed hub.toNat + 705 * 93 * 4096 ≤ s.nearBytes →
        Gives (.dumpRegion c hub) s fun t => Completed 6 c 0 [] s t ∧ t.dump.region = some hub.toNat ∧ Only (.dump :: completing) s t) ∧
      (hub.toNat < 8 → s.nearBytes < (s.onDump fun d => { d with region := none }).nearUsed hub.toNat + 705 * 93 * 4096 →
        Gives (.dumpRegion c hub) s fun t => Completed 6 c 0x0304 [] s t ∧ Only completing s t) ∧
      (8 ≤ hub.toNat → Gives (.dumpRegion c hub) s fun t => Completed 6 c 0x011C [] s t ∧ Only completing s t)) ∧
    (∀ core : Byte, Fetched 6 0x0605 c s →
      (core.toNat < 128 → 360 ≤ c.length.toNat → Gives (.coreInspect c core) s fun t =>
        Completed 6 c 0 (s.inspection core.toNat) s t ∧ (s.inspection core.toNat).length = 360 ∧ Only completing s t) ∧
      (128 ≤ core.toNat → Gives (.coreInspect c core) s fun t => Completed 6 c 0x011C [] s t ∧ Only completing s t)))

/-! ## Mailbox 3 and survey -/

/-- PORT_CONFIG, QUIESCE, SURVEY and LEGEND_FETCH (R227, R228, R287, R289, R295, R296, R406): with no job bound and no packet staged at
a port, a good map is in force, each used port DOWN with its bearing and links, and survey starts; QUIESCE takes its ports DOWN; SURVEY starts survey; with a job bound the
three complete with 0x0209; LEGEND_FETCH writes 260 bytes for each of the 24 links. -/
def Obligations.PortAndSurveyCommands : Prop :=
  ∀ (s : State) (c : Cmd), (∀ q, (s.out q).staged = []) →
    (∀ data : Bytes, Fetched 3 0x0301 c s →
      (s.job.bind = none → badPortMap data = false → s.badSheet (parseSheet (data.drop 208)) = false → Gives (.portConfig c data) s fun t =>
        Completed 3 c 0 [] s t ∧ t.survey.state = 1 ∧ t.survey.round = 0 ∧ t.survey.began = s.clock.uptime ∧ t.survey.sheet = parseSheet (data.drop 208) ∧
          (∀ q < 12, ∀ e, (portEntries data)[q]? = some (some e) → (t.port q).state = .down ∧ (t.port q).bearing = BitVec.ofNat 4 e.bearing ∧
            (t.port q).links = BitVec.ofNat 24 ((e.links.map fun n => 2 ^ n).sum) ∧ (t.port q).minUnits = e.minUnits) ∧
          (∀ q < 12, (portEntries data)[q]? = some none → t.port q = {}) ∧
          Only (.survey :: .links :: .ports :: .router :: completing) s t) ∧
      (s.job.bind.isSome = true → Gives (.portConfig c data) s fun t => Completed 3 c 0x0209 [] s t ∧ Only completing s t)) ∧
    (∀ mask : BitVec 16, Fetched 3 0x0302 c s →
      (s.job.bind = none → Gives (.quiesce c mask) s fun t =>
        Completed 3 c 0 [] s t ∧
          (∀ q < 12, (s.port q).state ≠ .unconfigured → mask.getLsbD q = true →
            (t.port q).state = .down ∧ (t.port q).quiesced = true ∧ (t.port q).bonded = 0 ∧ (t.port q).links = (s.port q).links) ∧
          (∀ q, mask.getLsbD q = false → t.port q = s.port q) ∧ Only (.links :: .ports :: .router :: completing) s t) ∧
      (s.job.bind.isSome = true → Gives (.quiesce c mask) s fun t => Completed 3 c 0x0209 [] s t ∧ Only completing s t)) ∧
    (Fetched 3 0x0303 c s →
      (s.job.bind = none → Gives (.survey c) s fun t =>
        Completed 3 c 0 [] s t ∧ t.survey.state = 1 ∧ t.survey.round = 0 ∧ t.survey.surveys = satInc s.survey.surveys ∧
          Only (.survey :: .links :: .ports :: completing) s t) ∧
      (s.job.bind.isSome = true → Gives (.survey c) s fun t => Completed 3 c 0x0209 [] s t ∧ Only completing s t)) ∧
    (Fetched 3 0x0304 c s → 6240 ≤ c.length.toNat → Gives (.legendFetch c) s fun t =>
      (∃ d, d.length = 6240 ∧ Completed 3 c 0 d s t) ∧ Only completing s t)

/-- Survey's own rows (R30, R35, R286, R289, R292, R310, R414): a round comes every 2 ms; a module that hears no claim is root at depth 0; a
legend is put together from fragments 0 to 18 in order on an UP link, and another message is counted there; survey settles 10 ms after the last change
or ends after 1 s; at start-up step 8 the root loads its counter with the stored value and the module is READY. -/
def Obligations.SurveyRoundsLegendsAndEnd : Prop :=
  ∀ s : State,
    (s.survey.state = 1 → (∀ q < 12, (s.port q).state = .unconfigured) → Gives .surveyRound s fun t =>
      t.survey.state = 1 ∧ t.survey.round = s.survey.round + 1 ∧ t.clock.uptime = max s.clock.uptime (s.survey.began + s.survey.round * 2000000) ∧
        t.mer.root = true ∧ t.mer.depth = 0 ∧ t.mer.rootFp = s.fuses.identityFp ∧ t.ports = s.ports ∧ (∀ k, t.byteAt k = s.byteAt k)) ∧
    (∀ (n : Fin 24) (m : BitVec 128), (s.link n).state = .up →
      (m.toNat % 65536 = 3 → Gives (.legendFragment n m) s fun t =>
        (t.link n).partial_ = leBytes 14 (m.toNat / 65536) ∧ (t.link n).nextFragment = 1 ∧ (t.link n).legend = (s.link n).legend ∧
          (∀ k, k ≠ n.val → t.link k = s.link k) ∧ Only [.links] s t) ∧
      (∀ i : Nat, 0 < i → i < 18 → m.toNat % 65536 = 3 + i * 256 → (s.link n).nextFragment = i → (s.link n).partial_ ≠ [] →
        Gives (.legendFragment n m) s fun t =>
          (t.link n).partial_ = (s.link n).partial_ ++ leBytes 14 (m.toNat / 65536) ∧ (t.link n).nextFragment = i + 1 ∧
            (t.link n).legend = (s.link n).legend ∧ (∀ k, k ≠ n.val → t.link k = s.link k) ∧ Only [.links] s t) ∧
      (m.toNat % 65536 = 3 + 18 * 256 → (s.link n).nextFragment = 18 → (s.link n).partial_.length = 252 → Gives (.legendFragment n m) s fun t =>
        (t.link n).legend = some ((s.link n).partial_ ++ (leBytes 14 (m.toNat / 65536)).take 4) ∧ (∀ k, k ≠ n.val → t.link k = s.link k) ∧
          Only [.links, .survey] s t) ∧
      (m.toNat % 256 ≠ 3 → Gives (.legendFragment n m) s fun t =>
        (t.link n).badSide = (s.link n).badSide + 1 ∧ (t.link n).legend = (s.link n).legend ∧ (∀ k, k ≠ n.val → t.link k = s.link k) ∧
          Only [.links] s t)) ∧
    (s.survey.state = 1 → s.dev.startStep = 8 → s.dev.state = .initialising → s.dev.surveyEnd = none → s.dev.slow = false → s.mer.root = true →
      ∀ v t0, s.mer.stored = some (v, t0) →
        (Gives .surveySettled s fun t =>
          t.survey.state = 2 ∧ t.clock.uptime = max s.clock.uptime (s.survey.lastChange + 10000000) ∧
            t.clock.meridian = v + (t.clock.uptime - t0) ∧ t.mer.lock = 2 ∧ t.dev.state = .ready ∧ t.dev.startStep = 9 ∧
            t.mem = s.mem ∧ t.job = s.job ∧ t.links = s.links) ∧
        Gives .surveyTimeout s fun t =>
          t.survey.state = 3 ∧ t.clock.uptime = max s.clock.uptime (s.survey.began + 1000000000) ∧ t.dev.state = .ready ∧ t.mer.lock = 2 ∧
            (∀ q < 12, (s.port q).state ≠ .unconfigured → (s.port q).state.bonded = false → (t.port q).state = .down) ∧
            (∀ q < 12, (s.port q).state.bonded = true → t.port q = s.port q) ∧ t.mem = s.mem ∧ t.job = s.job)

/-! ## Layouts and elastic jobs -/

/-- GAZETTEER_LOAD and CHART_LOAD (R248, R249, R298 to R301, R310): a gazetteer that passes R249 is in force at once outside a step and
waits within one, one that fails completes with 0x0114; a chart that passes R300 against the gazetteer of its job is in force, with 0x0502
where the job has more than 4,096 modules without Elastic Chart (R8); a chart that repeats the one in force completes with 0 and changes
nothing; after the first dispatch any other completes with 0x020B. INSET_STAGE and RESHAPE (R302, R306): with Elastic Chart and a job
bound, an inset that passes its checks and fits its arena is staged in place of the one for its half; a reshape that passes its checks
waits, its command in flight; without the licence both complete with 0x0502. -/
def Obligations.TopologyCommandsTakeEffect : Prop :=
  (∀ (s : State) (c : Cmd) (data : Bytes) (g : Gazetteer),
    (Fetched 3 0x0305 c s → parseGazetteer (data.take c.length.toNat) = some g → (s.mbox 3).version = 3 →
      (s.gazetteerBad g = false → s.job.attempt = none → Gives (.gazetteerLoad c data) s fun t =>
        Completed 3 c 0 [] s t ∧ t.topo.gaz = some g ∧ t.topo.chart = s.topo.chart ∧ Only (.topo :: completing) s t) ∧
      (s.gazetteerBad g = false → s.job.attempt.isSome = true → Gives (.gazetteerLoad c data) s fun t =>
        Completed 3 c 0 [] s t ∧ t.topo = { s.topo with nextGaz := some g } ∧ Only (.topo :: completing) s t) ∧
      (s.gazetteerBad g = true → Gives (.gazetteerLoad c data) s fun t => Completed 3 c 0x0114 [] s t ∧ Only completing s t)) ∧
    (Fetched 3 0x0306 c s → s.topo.gaz = some g → g.jobTag = (parseChart data).jobTag → (∀ y, s.topo.chart = some y → y.rank = false) →
      (s.job.dispatched = false → (parseChart data).inset = 0 → (parseChart data).bad (field data 11 1) g = false →
        ((parseChart data).place g g.selfCoord).isSome = true → (∀ y, s.topo.chart = some y → y.bytes ≠ (parseChart data).bytes) →
        (s.tooLarge g = false → Gives (.chartLoad c data) s fun t =>
          Completed 3 c 0 [] s t ∧ t.topo.chart = some (parseChart data) ∧ t.topo.gaz = s.topo.gaz ∧ t.topo.insets = [] ∧
            Only (.topo :: completing) s t) ∧
        (4096 < g.jobSize → s.licensed 2 = false → Gives (.chartLoad c data) s fun t =>
          Completed 3 c 0x0502 [] s t ∧ Only completing s t)) ∧
      (∀ y, s.topo.chart = some y → y.bytes = (parseChart data).bytes → y.epoch = (parseChart data).epoch → Gives (.chartLoad c data) s fun t =>
        Completed 3 c 0 [] s t ∧ Only completing s t) ∧
      (s.job.dispatched = true → (∀ y, s.topo.chart = some y → y.bytes ≠ (parseChart data).bytes) → Gives (.chartLoad c data) s fun t =>
        Completed 3 c 0x020B [] s t ∧ Only completing s t))) ∧
  (∀ (s : State) (c : Cmd) (data : Bytes),
    (∀ (frames : BitVec 16) (plans : Byte), Fetched 3 0x0307 c s →
      (∀ i, s.licensed 2 = true → s.job.bind.isSome = true → c.mboxByte.toNat ≤ 1 → frames ≠ 0 → plans.toNat ≤ 4 → s.topo.window = none →
        s.insetOf c.mboxByte.toNat frames.toNat plans.toNat (data.take c.length.toNat) = .ok i →
        s.insetsFit (i :: s.topo.insets.filter fun o => o.k ≠ c.mboxByte.toNat) = true → Gives (.insetStage c frames plans data) s fun t =>
          Completed 3 c 0 [] s t ∧ t.topo.insets = i :: (s.topo.insets.filter fun o => o.k ≠ c.mboxByte.toNat) ∧ t.topo.chart = s.topo.chart ∧
            Only (.topo :: completing) s t) ∧
      (s.licensed 2 = false → Gives (.insetStage c frames plans data) s fun t => Completed 3 c 0x0502 [] s t ∧ Only completing s t)) ∧
    (∀ after frames : Word, Fetched 3 0x0308 c s →
      (∀ g, s.licensed 2 = true → s.job.bind.isSome = true → s.job.suspended = false → s.topo.reshape = none →
        parseGazetteer ((data.take c.length.toNat).drop 128) = some g → (s.ownGazetteer g).ranksBad = false →
        (parseChart (data.take c.length.toNat)).inset = 0 → (parseChart (data.take c.length.toNat)).jobTag = g.jobTag →
        (parseChart (data.take c.length.toNat)).bad (field (data.take c.length.toNat) 11 1) (s.ownGazetteer g) = false →
        s.follows (parseChart (data.take c.length.toNat)) = true →
        s.framesNeeded { tag := c.tag, chart := parseChart (data.take c.length.toNat), gaz := s.ownGazetteer g, afterStep := after, frames := frames.toNat } ≤ frames.toNat →
        Gives (.reshape c after frames data) s fun t =>
          (∃ r, t.topo.reshape = some r ∧ r.tag = c.tag ∧ r.chart = parseChart (data.take c.length.toNat) ∧ r.gaz = s.ownGazetteer g ∧
            r.afterStep = after ∧ r.frames = frames.toNat ∧ r.opened = none) ∧
            t.topo.chart = s.topo.chart ∧ t.topo.gaz = s.topo.gaz ∧ (∃ f, (t.mbox 3).inFlight = [f] ∧ f.tag = c.tag) ∧ Only [.topo, .mboxes] s t) ∧
      (s.licensed 2 = false → Gives (.reshape c after frames data) s fun t => Completed 3 c 0x0502 [] s t ∧ Only completing s t)))

/-- The end of a migration window (R302, R303): with no module lost and every granule at hand the new chart and gazetteer are in force and the
RESHAPE completes with 0; with a notice held, and RELEASE of the last commit, the old ones stay, the job is suspended and the RESHAPE completes with 0x020C. -/
def Obligations.MigrationWindowEndsInNewOrOldLayout : Prop :=
  ∀ (s : State) (r : Reshape) (o : Nat) (c : Cmd) (f : InFlightCmd), s.topo.reshape = some r → r.opened = some o → (o + r.frames : Nat) ≤ s.job.frame →
    s.job.dispatches = [] → s.job.attempt = none → (s.mbox 3).inFlight = [f] → f.tag = c.tag → r.tag = c.tag → (s.mbox 3).dropped = [] → s.cofin.up = true →
    (s.mbox 3).noRoom = false →
    (∀ p l, s.topo.notices = [] → r.chart.place r.gaz s.ownCoord = some p → s.newGranules r p = some l → Gives .migrationWindowEnd s fun t =>
      Completed 3 c 0 [] s t ∧ t.topo.chart = some r.chart ∧ t.topo.gaz = some r.gaz ∧ t.topo.reshape = none ∧ t.job.suspended = s.job.suspended ∧
        t.job.bind = s.job.bind) ∧
    (s.topo.notices ≠ [] → s.released = true → Gives .migrationWindowEnd s fun t =>
      Completed 3 c 0x020C [] s t ∧ t.topo.chart = s.topo.chart ∧ t.topo.gaz = s.topo.gaz ∧ t.topo.reshape = none ∧ t.job.suspended = true ∧
        t.job.bind = s.job.bind)

/-- Losing a module (R255, R305, R307): a PEER_LOST of the bound job is held once with its frame, by the module and by the step attempt in
progress; one of another job changes nothing; a proposal of the job counts before the window's deadline. The end of a reshape window and
the retry after an inset switch (R307 to R309): the notices that counted are spent; with no module lost the job goes on; with one lost and
no licence for a switch the status block names it, RESHAPE_BLOCKED is logged and the job is suspended; at the frame of an inset's retry
the switch is over. -/
def Obligations.LossesAreHeldAndReshapeWindowsEnd : Prop :=
  (∀ (s : State) (coord : BitVec 48) (b : Bind), s.job.bind = some b →
    (∀ f : BitVec 64, s.topo.reshape = none → s.sealSt.vote = none → s.sealSt.doneWaiting = [] →
      (Gives (.peerLost b.jobTag coord f) s fun t =>
        (coord, f.toNat) ∈ t.topo.notices ∧ (∀ n ∈ s.topo.notices, n ∈ t.topo.notices) ∧
          (∀ a, s.job.attempt = some a → ∃ a', t.job.attempt = some a' ∧ (coord, f.toNat) ∈ a'.lost ∧ a'.step = a.step) ∧ Only [.topo, .job] s t) ∧
      ∀ tag, tag ≠ b.jobTag → Gives (.peerLost tag coord f) s (Only [] s)) ∧
    (∀ w, s.topo.window = some w → (s.clock.meridian : Int) < b.deadline ((w + b.horizon : Nat) : Int) → s.topo.proposals.contains coord = false →
      Gives (.reshapeProposal b.jobTag coord) s fun t => t.topo.proposals = coord :: s.topo.proposals ∧ t.topo.notices = s.topo.notices ∧ Only [.topo] s t)) ∧
  (∀ (s : State) (b : Bind), s.job.bind = some b → s.job.dispatches = [] → s.job.attempt = none →
    (∀ w, s.topo.window = some w → (w + b.horizon + 1 : Nat) ≤ s.job.frame →
      (s.lostSet w = [] → Gives .reshapeWindowEnd s fun t =>
        t.topo.window = none ∧ t.topo.proposals = [] ∧ t.topo.notices = s.topo.notices.filter (fun n => decide (w < n.2)) ∧
          t.topo.lostCount = 0 ∧ t.job.suspended = s.job.suspended ∧ t.job.bind = s.job.bind) ∧
      (∀ l, s.lostSet w = [l] → s.licensed 2 = false → s.released = true → s.topo.reshape = none → Gives .reshapeWindowEnd s fun t =>
        t.topo.window = none ∧ t.topo.lostFirst = l ∧ t.topo.lostCount = 1 ∧ t.job.suspended = true ∧ t.job.bind = s.job.bind ∧
          t.topo.chart = s.topo.chart ∧ t.topo.gaz = s.topo.gaz ∧ (Quiet s → InLog s .reshapeBlocked srcModule 1 t))) ∧
    (∀ f : Nat, s.topo.switchAt = some f → (f : Int) ≤ s.job.frame → Gives .insetRetryStart s fun t =>
      t.topo.switchAt = none ∧ t.topo.chart = s.topo.chart ∧ t.job.suspended = s.job.suspended))

/-! ## Management -/

/-- The management port, I3C and the telemetry mirror (R391, R436 to R438): LOG and IDENT requests are answered, at most 1,000 in one second
of uptime; an echo request and a neighbour request for an address held are answered on the management port and on a gateway port that is up; DHCP
gives an address; APPLY puts settings with an address in force and leaves static ones without one out, with MGMT_CONFIG in either case; SETDASA and
ENTDAA give the dynamic address; an I3C write of a setting changes it among those to apply; a refresh writes its block's bytes into the mirror and no others, and one of the gateway block
counts the frames FEC could not correct (R236). -/
def Obligations.ManagementPortAndMirrorServe : Prop :=
  ∀ s : State, s.dev.standbyOn = true →
    (∀ (seq : Word) (count : Byte), 0 < count.toNat → count.toNat ≤ 32 →
      ((s.mgmt.second ≠ s.clock.uptime / 1000000000 ∨ s.mgmt.answered < 1000) → Gives (.mgmtLogRequest seq count) s fun t =>
        t.emitted = .mgmtReply (s.logReply seq count.toNat) :: s.emitted ∧ Only [.mgmt, .emitted] s t) ∧
      (s.mgmt.second = s.clock.uptime / 1000000000 → 1000 ≤ s.mgmt.answered → Gives (.mgmtLogRequest seq count) s (Only [] s))) ∧
    ((s.mgmt.second ≠ s.clock.uptime / 1000000000 ∨ s.mgmt.answered < 1000) → Gives .mgmtIdentRequest s fun t =>
      t.emitted = .mgmtReply s.identReply :: s.emitted ∧ Only [.mgmt, .emitted] s t) ∧
    (∀ payload : Bytes, Gives (.icmpEchoRequest .management payload) s fun t =>
      t.emitted = .echoReply .management payload :: s.emitted ∧ Only [.emitted] s t) ∧
    (∀ (g : Fin 2) (payload : Bytes), s.gwState g = 2 → (s.gw g).echoFrame payload ≤ 9216 → Gives (.icmpEchoRequest (.gateway g) payload) s fun t =>
      t.emitted = .echoReply (.gateway g) payload :: s.emitted ∧ Only [.gws, .emitted] s t) ∧
    (∀ g : Fin 2, s.gwState g = 2 → (s.gw g).address ≠ 0 → Gives (.neighbourDiscovery (.gateway g) (s.gw g).address) s fun t =>
      t.emitted = .neighbourReply (.gateway g) (s.gw g).address :: s.emitted ∧ Only [.gws, .emitted] s t) ∧
    (∀ a : BitVec 128, s.mgmt.applied.mode = 1 → s.mgmt.applied.address = a → Gives (.neighbourDiscovery .management a) s fun t =>
      t.emitted = .neighbourReply .management a :: s.emitted ∧ Only [.emitted] s t) ∧
    (∀ a : BitVec 32, s.mgmt.applied.mode = 0 → Gives (.dhcpReply a) s fun t => t.mgmt = { s.mgmt with dhcp := some a } ∧ Only [.mgmt] s t) ∧
    ((s.mgmt.pending.address ≠ 0 → Gives .mgmtApply s fun t => t.mgmt.applied = s.mgmt.pending ∧
        (Quiet s → Logged .mgmtConfig srcControl 0 s t) ∧ Only (.mgmt :: logging) s t) ∧
      (s.mgmt.pending.mode = 1 → s.mgmt.pending.address = 0 → Gives .mgmtApply s fun t => t.mgmt = s.mgmt ∧
        (Quiet s → Logged .mgmtConfig srcControl 1 s t) ∧ Only logging s t)) ∧
    (∀ a : BitVec 7, Gives (.i3cSetdasa a) s fun t => t.mgmt = { s.mgmt with dynAddr := some a } ∧ Only [.mgmt] s t) ∧
    (∀ a : BitVec 7, s.mgmt.dynAddr = none → Gives (.i3cEntdaa a) s fun t => t.mgmt = { s.mgmt with dynAddr := some a } ∧ Only [.mgmt] s t) ∧
    (∀ v : Byte, Gives (.i3cBlockWrite 0x11 [v]) s fun t =>
      t.mgmt = { s.mgmt with pending := { s.mgmt.pending with plen := v } } ∧ Only [.mgmt] s t) ∧
    (∀ (b : Block) (m : Measured), b ≠ .power → (b = .gateway → m.fec = []) → Gives (.telemetryRefresh b m) s fun t =>
      (∀ i < (s.renderBlock b m).2.length, Tab.get 0 ((s.renderBlock b m).1 + i) t.regs.mirror = (s.renderBlock b m).2.getD i 0) ∧
        (∀ k, (k < (s.renderBlock b m).1 ∨ (s.renderBlock b m).1 + (s.renderBlock b m).2.length ≤ k) →
          Tab.get 0 k t.regs.mirror = Tab.get 0 k s.regs.mirror) ∧ Only [.regs] s t) ∧
    (∀ (g : Fin 2) (n : Word) (m : Measured), m.fec = [(g, n)] → Gives (.telemetryRefresh .gateway m) s fun t =>
      (t.gw g).fecUncorrected = satAdd (s.gw g).fecUncorrected n.toNat ∧ (∀ h, h ≠ g.val → t.gw h = s.gw h) ∧ Only [.gws, .regs] s t)

/-- The PMBus mirror and JTAG (R439, R440): every read row answers its word and changes nothing; PAGE takes 0 to 40; other writes are not
acknowledged and set CML; READ_VOUT answers the page's rail (R23), millivolts measured only on the HBM rails of pages 24 to 31; the JTAG rows select their instruction, IDCODE and SAMPLE shift out their value, and EXTEST drives the cells only
in HELD before firmware runs. The layout of the words is the model's (log entry 32). -/
def Obligations.PmbusAndJtagRows : Prop :=
  (∀ s : State, s.dev.standbyOn = true →
    (∀ p : Byte, p.toNat ≤ 40 → Gives (.pmbusPage p) s fun t => t.mgmt = { s.mgmt with page := p } ∧ Only [.mgmt] s t) ∧
    (∀ k : Byte, k ≠ 0 → Gives (.pmbusWriteRefused k) s fun t =>
      t.mgmt = { s.mgmt with cml := true } ∧ t.emitted = .smbusNack :: s.emitted ∧ Only [.mgmt, .emitted] s t) ∧
    (∀ e ∈ ([(.voutMode, 0x14), (.statusWord, s.statusBits), (.pmbusRevision, 0x33)] : List (Instr × Nat)),
      Gives e.1 s fun t => t.emitted = .smbus e.2 :: s.emitted ∧ Only [.emitted] s t) ∧
    (∀ v : Nat, s.railOn = true → ∀ e ∈ ([(.readVin v, linear11 v), (.readIout v, linear11 v), (.readPout v, linear11 v)] :
        List (Instr × Nat)), Gives e.1 s fun t => t.emitted = .smbus e.2 :: s.emitted ∧ Only [.emitted] s t) ∧
    (∀ v : Nat,
      (s.railOn = false → Gives (.readVout v) s fun t => t.emitted = .smbus (linear16 0) :: s.emitted ∧ Only [.emitted] s t) ∧
      (s.railOn = true → (s.mgmt.page.toNat < 16 → Gives (.readVout v) s fun t =>
          t.emitted = .smbus (linear16 s.power.cmpVolts) :: s.emitted ∧ Only [.emitted] s t) ∧
        ((16 ≤ s.mgmt.page.toNat ∧ s.mgmt.page.toNat < 24 ∨ 32 ≤ s.mgmt.page.toNat ∧ s.mgmt.page.toNat < 39) → Gives (.readVout v) s fun t =>
          t.emitted = .smbus (linear16 750) :: s.emitted ∧ Only [.emitted] s t) ∧
        (24 ≤ s.mgmt.page.toNat → s.mgmt.page.toNat < 32 → Gives (.readVout v) s fun t =>
          t.emitted = .smbus (linear16 v) :: s.emitted ∧ Only [.emitted] s t) ∧
        (39 ≤ s.mgmt.page.toNat → Gives (.readVout v) s fun t =>
          t.emitted = .smbus (linear16 3300) :: s.emitted ∧ Only [.emitted] s t))) ∧
    (∀ v : Int, Gives (.readTemperature1 v) s fun t => t.emitted = .smbus (linear11 v) :: s.emitted ∧ Only [.emitted] s t)) ∧
  ∀ s : State, s.dev.vin48 = true →
    (Gives .bypass s fun t => t.mgmt = { s.mgmt with jtag := 0, tlr := false } ∧ Only [.mgmt] s t) ∧
    (Gives .idcode s fun t =>
      t.mgmt = { s.mgmt with jtag := 1, tlr := false } ∧ t.emitted = .jtagOut 0x17404C4F :: s.emitted ∧ Only [.mgmt, .emitted] s t) ∧
    (∀ pins cells : Word, Gives (.samplePreload pins cells) s fun t =>
      t.mgmt = { s.mgmt with jtag := 2, tlr := false, capture := pins, cells := cells } ∧ t.emitted = .jtagOut pins :: s.emitted ∧
        Only [.mgmt, .emitted] s t) ∧
    (s.dev.state = .held → s.dev.firmware = false → Gives .extest s fun t =>
      t.mgmt = { s.mgmt with jtag := 3, tlr := false } ∧ t.emitted = .pins s.mgmt.cells :: s.emitted ∧ Only [.mgmt, .emitted] s t) ∧
    ((s.dev.state ≠ .held ∨ s.dev.firmware = true) → Gives .extest s fun t =>
      t.mgmt = { s.mgmt with jtag := 0, tlr := false } ∧ Only [.mgmt] s t) ∧
    (Gives .jtagTestLogicReset s fun t => t.mgmt = { s.mgmt with jtag := 1, tlr := true } ∧ Only [.mgmt] s t)

/-! ## Field tests, frames and the meridian counter -/

/-- A field test runs on physical core `p` (R72, R364): it starts now, or a test that a frame's work interrupted goes on; the core's token mode is set
aside, and no other core has changed. -/
def TestRuns (p : Nat) (s t : State) : Prop :=
  (t.core p).test.state = .running ∧
    (t.core p).test.started = (if (s.core p).test.state = .running then (s.core p).test.started else s.clock.uptime) ∧
    (t.core p).scoreboard = true ∧ (t.core p).saved = some ((s.core p).queues, (s.core p).strands) ∧ (t.core p).queues = [] ∧
    ∀ q, q ≠ p → t.core q = s.core q

/-- Field tests (R345, R364, R365, R409): FIELD_TEST starts the test of a free core in READY, and an unassigned or retired core completes with 0x011C;
a forced test starts, and so does one whose turn it is, with no job bound or in a frame cleared for it; one that was interrupted goes on;
31 s after the last passing one a test is forced and after 32 s it is logged late; a test that passes restores token mode and its command completes with
0; one that fails completes it with 0x0403, resets the core and is to run again. -/
def Obligations.FieldTestsStartAndEnd : Prop :=
  (∀ (s : State) (c : Cmd) (core : Byte), Fetched 6 0x0604 c s →
    (s.testable core.toNat = false → Gives (.fieldTest c core) s fun t => Completed 6 c 0x011C [] s t ∧ Only completing s t) ∧
    (s.dev.state = .ready → s.testOpen core.toNat = true → Gives (.fieldTest c core) s fun t =>
      TestRuns (s.phys core.toNat) s t ∧ (t.core (s.phys core.toNat)).test.tags = (s.core (s.phys core.toNat)).test.tags ++ [c.tag] ∧
        (∃ f, (t.mbox 6).inFlight = [f] ∧ f.tag = c.tag ∧ f.begun = true) ∧ Only [.mboxes, .cores, .power] s t)) ∧
  ∀ (s : State) (n : Fin 120),
    (s.testOpen n = true → (s.core (s.phys n)).test.forced = true → Gives (.fieldTestStart n) s fun t =>
      TestRuns (s.phys n) s t ∧ t.integ = s.integ ∧ Only [.cores, .power] s t) ∧
    (s.testOpen n = true → (s.core (s.phys n)).test.forced = false →
      (s.job.bind = none ∨ (s.power.cleared.contains 4 = true ∧ s.power.testSpent = false)) →
      ((s.core (s.phys n)).test.state ≠ .running → s.nextTest s.integ.testTurn = some n.val → Gives (.fieldTestStart n) s fun t =>
        TestRuns (s.phys n) s t ∧ t.integ = { s.integ with testTurn := (n.val + 1) % 120 } ∧ Only [.cores, .power, .integ] s t) ∧
      ((s.core (s.phys n)).test.state = .running → Gives (.fieldTestStart n) s fun t =>
        TestRuns (s.phys n) s t ∧ t.integ = s.integ ∧ Only [.cores, .power] s t)) ∧
    (s.testable n = true → s.dev.mainOn = true →
      ((s.core (s.phys n)).test.forced = false → (s.core (s.phys n)).scoreboard = false → Gives (.fieldTestDue n) s fun t =>
        t.core (s.phys n) = { s.core (s.phys n) with test := { (s.core (s.phys n)).test with forced := true } } ∧
          (∀ q, q ≠ s.phys n → t.core q = s.core q) ∧
          t.clock.uptime = max s.clock.uptime ((s.core (s.phys n)).test.lastPass + 31000000000) ∧ Only [.cores, .clock] s t) ∧
      ((s.core (s.phys n)).test.late = false → (s.core (s.phys n)).test.state ≠ .running → Quiet s → Gives (.fieldTestLate n) s fun t =>
        t.core (s.phys n) = { s.core (s.phys n) with test := { (s.core (s.phys n)).test with late := true } } ∧
          (∀ q, q ≠ s.phys n → t.core q = s.core q) ∧
          t.clock.uptime = max s.clock.uptime ((s.core (s.phys n)).test.lastPass + 32000000000) ∧
          t.log.lastEvent = eventWord Event.fieldTestLate.info.1 (srcCore (s.phys n)) Event.fieldTestLate.info.2 ∧
          Only (.cores :: .clock :: logging) s t)) ∧
    (∀ r : TestResult, s.testable n = true → (s.core (s.phys n)).test.state = .running → (s.core (s.phys n)).scoreboard = true →
      (s.core (s.phys n)).test.rerun = false → (s.core (s.phys n)).test.trial = false →
      (∀ (c : Cmd) (f : InFlightCmd), (s.core (s.phys n)).test.tags = [c.tag] → (s.mbox 6).inFlight = [f] → f.tag = c.tag → (s.mbox 6).dropped = [] →
        s.cofin.up = true → (s.mbox 6).noRoom = false → Gives (.fieldTestDone n r) s fun t =>
          Completed 6 c (if r.passed then 0 else 0x0403) [] s t ∧ (t.core (s.phys n)).test.tags = []) ∧
      ((s.core (s.phys n)).test.tags = [] → r.passed = true → ∀ q st, (s.core (s.phys n)).saved = some (q, st) → Gives (.fieldTestDone n r) s fun t =>
        (t.core (s.phys n)).test.state = .passed ∧ (t.core (s.phys n)).test.lastPass = (s.core (s.phys n)).test.started ∧
          (t.core (s.phys n)).scoreboard = false ∧ (t.core (s.phys n)).queues = q ∧ (t.core (s.phys n)).strands = st ∧
          t.integ = { s.integ with passed := satInc s.integ.passed } ∧ (∀ p, p ≠ s.phys n → t.core p = s.core p) ∧
          Only [.cores, .integ] s t) ∧
      ((s.core (s.phys n)).test.tags = [] → r.passed = false → Gives (.fieldTestDone n r) s fun t =>
        (t.core (s.phys n)).test.state = .failed ∧ (t.core (s.phys n)).test.rerun = true ∧ (t.core (s.phys n)).test.forced = true ∧
          (t.core (s.phys n)).test.fails = satInc (s.core (s.phys n)).test.fails ∧ (t.core (s.phys n)).inReset = true ∧
          t.integ.failed = satInc s.integ.failed ∧ (⟨.core, s.phys n, s.clock.uptime + 2000⟩ : ResetRun) ∈ t.dev.resets))

/-- The side stream of a link (R218) has nothing to send and sends nothing. -/
def SideIdle (s : State) (n : Nat) : Prop := (s.link n).sideQueue = [] ∧ s.sideBusy n = false

/-- Nothing slews the meridian counter. -/
def Steady (s : State) : Prop := s.mer.trim = 0 ∧ s.mer.learned = 0 ∧ s.mer.slew = none ∧ 0 ≤ s.clock.phase ∧ s.clock.phase < 100000000

/-- Frames of a bound job (R38, R41 to R44, R49, R247): a tick begins the next frame and, when a dispatch's first frame has come, its attempt;
the deadline gives the boundary message to every link of every bonded port, which sends it at once where its side stream is idle, and closes
the frame; work left at the deadline is an overrun,
and its frame-abort is broadcast. -/
def Obligations.TicksAndDeadlines : Prop :=
  ∀ (s : State) (b : Bind), s.job.bind = some b →
    (∀ e : TickEnv, s.job.open_ = false → s.job.attempt = none → s.mer.unlockDue = false → s.job.splitDue = false → s.power.floor = false →
      s.power.unmetDue = false → (∀ h, (s.hub h).due = [] ∧ (s.hub h).waiting = []) → s.job.ticking = true →
      (s.job.dispatches = [] → Gives (.tick e) s fun t =>
        t.job = { s.job with
          frame := ((s.job.tickAt + b.period : Nat) - (b.baseTick : Int)) / b.period, tickAt := s.job.tickAt + b.period, open_ := true
          overrunSeen := false, delivered := [], running := none } ∧
          (Steady s → t.clock.meridian = max s.clock.meridian (s.job.tickAt + b.period)) ∧ t.power.cleared = [1, 2, 3, 4, 5] ∧
          (∀ p, t.core p = { s.core p with worked := false, late := false, closing := none, used := [] }) ∧
          Only [.clock, .job, .power, .cores, .hubs, .links, .emitted] s t) ∧
      (∀ (d : Dispatch) (c f : Nat), s.job.dispatches = [d] → d.done = false → d.contour = some c → d.first = f → s.job.suspended = false →
        (s.mer.lock = 2 ∨ s.mer.lock = 3) → (Tab.get {} d.slot s.job.slots).loading = none →
        ((s.job.tickAt + b.period : Nat) - (b.baseTick : Int)) / b.period = f → s.topo.window = none → s.topo.switchAt = none → s.topo.reshape = none →
        Gives (.tick e) s fun t =>
          (∃ a, t.job.attempt = some a ∧ a.step = d.step ∧ a.firstFrame = f) ∧ t.job.frame = f ∧ 0 < t.job.attempts ∧
            ∀ h < 8, (t.hub h).attempt = t.job.attempts)) ∧
    (s.job.open_ = true → s.job.neighbours = [] → (∀ n ∈ s.dataLinks, SideIdle s n) →
      (s.job.attempt = none → Gives .deadline s fun t =>
        t.job.open_ = false ∧ (Steady s → t.clock.meridian = max s.clock.meridian (s.job.tickAt + b.period - b.guardNs)) ∧
          (∀ n ∈ s.dataLinks, Emission.side n (t.boundaryMessage b) ∈ t.emitted) ∧
          Only [.clock, .router, .job, .power, .links, .emitted] s t) ∧
      (∀ a, s.job.attempt = some a → a.window = none → a.stopFrom = none → a.abortFo = none → s.job.running.isSome = true →
        s.job.overrunSeen = false → s.cores ≠ [] → (∀ e ∈ s.cores, e.2.unfinished = true) → Gives .deadline s fun t =>
          t.job.open_ = false ∧ t.job.overruns = satInc s.job.overruns ∧
            Emission.frameAbort b.jobTag a.step s.attemptTag s.job.now ∈ t.emitted ∧
            t.job.attempt = some { a with abortFo := some s.job.now, stopFrom := some (s.job.now + 1), abortSent := true } ∧
            ∀ n ∈ s.dataLinks, Emission.side n (t.boundaryMessage b) ∈ t.emitted))

/-- The messages between modules of a job (R43, R50, R247): a boundary message whose CRC holds replaces what its link last brought, one whose CRC
fails is counted on its link; a frame-abort of the running step and attempt is known and stops issue from the next tick, one of another attempt is
stale, one of another job is ignored. -/
def Obligations.BoundaryMessagesAndFrameAborts : Prop :=
  ∀ (s : State) (b : Bind), s.job.bind = some b →
    (∀ n : Fin 24,
      (∀ (abort overflowed hold : Bool) (tag hash : BitVec 16) (frame req flood seq depth : Nat),
        (s.portOfBonded n).isSome = true → Gives (.frameBoundaryMessage n (withCrc16 (boundaryBits abort overflowed hold tag frame req flood seq depth hash))) s fun t =>
          (∃ m, Tab.get {} n.val t.job.neighbours = m ∧ m.jobTag = tag ∧ m.abort = abort ∧ m.req = req % 16 ∧ m.flood = flood % 16 ∧
            m.phaseSeq = seq % 2 ^ 16 ∧ m.depth = BitVec.ofNat 8 depth ∧ m.bindHash = hash ∧ m.frameLo = BitVec.ofNat 32 frame ∧ m.fresh = true) ∧
            (∀ k, k ≠ n.val → Tab.get {} k t.job.neighbours = Tab.get {} k s.job.neighbours) ∧ Only [.job] s t) ∧
      (∀ msg : BitVec 128, (crc16 (leBytes 14 msg.toNat)).toNat ≠ msg.toNat / 2 ^ 112 →
        Gives (.frameBoundaryMessage n msg) s fun t =>
          t.link n = { s.link n with badSide := (s.link n).badSide + 1 } ∧ (∀ k, k ≠ n.val → t.link k = s.link k) ∧ Only [.links] s t)) ∧
    (∀ (tag : BitVec 16) (step : Word) (attempt : Byte) (fo : BitVec 64),
      (tag ≠ b.jobTag → Gives (.frameAbort tag step attempt fo) s (Only [] s)) ∧
      (attempt ≠ s.attemptTag → Gives (.frameAbort b.jobTag step attempt fo) s fun t =>
        t.router = { s.router with stale := satInc s.router.stale } ∧ Only [.router] s t) ∧
      (∀ a, s.job.attempt = some a → a.step = step → a.abortFo = none → a.stopFrom = none → attempt = s.attemptTag →
        Gives (.frameAbort b.jobTag step attempt fo) s fun t =>
          t.job = { s.job with
            aborts := satInc s.job.aborts, attempt := some { a with abortFo := some fo.toNat, stopFrom := some (s.frameNow + 1) } } ∧
            Only (.job :: logging) s t))

/-- The meridian counter (R28, R31, R35, R36, R45, R218, R221, R402): an exchange gives the last timestamps to its link's side stream, which
sends them when it is idle and holds them while a message is being sent; a received one gives the link's offset and delay; the eighth round
of exchanges within ±5 ns locks, from Holdover too, and the third beyond ±50 ns unlocks; 10 ms without one is Holdover and 20 ms of it an
unlock; Acquiring, the counter is stepped once to the upstream mean; a commanded slew moves it by the rate times the duration. -/
def Obligations.MeridianRowsMoveAndLockTheCounter : Prop :=
  ∀ (s : State) (n : Fin 24),
    (∀ msg : BitVec 128, msg = BitVec.ofNat 128 (2 + unsigned 48 (Tab.get (0, 0) n.val s.mer.stamps).1 * 2 ^ 8 +
        unsigned 48 (Tab.get (0, 0) n.val s.mer.stamps).2 * 2 ^ 56) → s.carries n = true →
      (SideIdle s n → Gives (.meridianExchange n) s fun t => t.emitted = .side n msg :: s.emitted ∧ Only [.links, .emitted] s t) ∧
      (s.sideBusy n = true → Gives (.meridianExchange n) s fun t =>
        (t.link n).sideQueue = (s.link n).sideQueue ++ [msg] ∧ (∀ k, k ≠ n.val → t.link k = s.link k) ∧ Only [.links] s t)) ∧
    (∀ t1 t2 t3 t4 : Int, s.carries n = true →
      (s.mer.root = true → t2 - t1 + (t4 - t3) ≤ 70000 → Gives (.meridianExchangeReceived n t1 t2 t3 t4) s fun t =>
        Tab.get none n.val t.mer.offsets = some (t2 - t1 - (t4 - t3), s.clock.uptime) ∧ Tab.get (0, 0) n.val t.mer.stamps = (t2, t3) ∧
          t.mer.lock = s.mer.lock ∧ (t.link n).tooLong = false ∧ (∀ k, k ≠ n.val → t.link k = s.link k) ∧ Only [.mer, .links] s t) ∧
      (s.mer.root = true → 70000 < t2 - t1 + (t4 - t3) → (s.link n).tooLong = false → Quiet s →
        Gives (.meridianExchangeReceived n t1 t2 t3 t4) s fun t => (t.link n).tooLong = true ∧ Logged .linkTooLong (srcLink n) 0 s t) ∧
      (s.mer.root = false → s.upstreamLinks = [n.val] → s.mer.round = [] →
        ((s.mer.lock = 1 ∨ s.mer.lock = 3) → s.mer.good = 7 → (t2 - t1 - (t4 - t3)).natAbs ≤ 500 →
          Gives (.meridianExchangeReceived n t1 t2 t3 t4) s fun t => t.mer.lock = 2 ∧ t.mer.lastExchange = s.clock.uptime) ∧
        ((s.mer.lock = 2 ∨ s.mer.lock = 3) → s.mer.bad = 2 → 5000 < (t2 - t1 - (t4 - t3)).natAbs → s.job.bind = none →
          Gives (.meridianExchangeReceived n t1 t2 t3 t4) s fun t => t.mer.lock = 1 ∧ t.mer.unlocks = satInc s.mer.unlocks))) ∧
    (s.mer.lock = 2 → s.mer.root = false → Gives .meridianHoldover s fun t =>
      t.mer = { s.mer with lock := 3, holdoverAt := some t.clock.uptime, good := 0, round := [] } ∧
        t.clock.uptime = max s.clock.uptime (s.mer.lastExchange + 10000000) ∧ Only (.mer :: .clock :: logging) s t) ∧
    (∀ at_, s.mer.lock = 3 → s.mer.holdoverAt = some at_ → Gives .meridianUnlock s fun t =>
      t.clock.uptime = max s.clock.uptime (at_ + 20000000) ∧ t.mer.unlocks = satInc s.mer.unlocks ∧
        (s.job.bind = none → t.mer.lock = 1) ∧ (s.job.bind.isSome = true → t.mer.lock = 0 ∧ t.mer.unlockDue = true) ∧
        Only (.mer :: .clock :: logging) s t) ∧
    (s.mer.lock = 1 → s.mer.root = false → s.mer.stepped = false → s.mer.upstream ≠ 0 → s.upstreamOffsets ≠ [] → s.job.attempt = none →
      Gives .meridianStep s fun t =>
        t.clock = { s.clock with meridian := (s.clock.meridian + s.upstreamNs).toNat } ∧
          t.mer = { s.mer with stepped := true, offsets := [], round := [], good := 0, bad := 0 } ∧
          t.job = { s.job with ticking := false, open_ := false } ∧ Only (.mer :: .clock :: .job :: logging) s t) ∧
    (∀ (rate : Int) (began ms : Nat), s.mer.slew = some (rate, began, ms) → Gives .meridianSlewEnd s fun t =>
      t.clock.uptime = max s.clock.uptime (began + ms * 1000000) ∧ t.mer = { s.mer with slew := none } ∧
        (s.clock.uptime = began → s.clock.phase = 0 → s.mer.trim = 0 → s.mer.learned = 0 →
          t.clock.meridian = ((s.clock.meridian : Int) + ms * 1000000 + rate * ms / 100).toNat) ∧
        Only [.mer, .clock] s t)

/-! ## Macro-ops -/

/-- The macro-op of code `oc` and fields `m` is the head of the strand at seat `q`, every condition of R59 holds and the sequencer chooses the
strand (R60), its checks find nothing, its plan does not run twinned, entries in flight are numbered below the next, and every HBM channel
takes requests. -/
def AtHead (i : Issue) (oc : Nat) (m : MacroOp) (q : Seat) (o : RawOp) (s : State) : Prop :=
  s.seat i.core.val = some q ∧ s.issues q = true ∧ (s.strand q.p i.strand.val).work = true ∧
    (q.native i.strand.val)[(s.strand q.p i.strand.val).pc]? = some o ∧ o.opcode = oc ∧ o.op = m ∧
    s.blocked q i.strand.val o (s.footprint q o) = none ∧ i.upset = .none ∧ q.r.plan.twin = false ∧
    s.chosen q i.strand.val = true ∧ (∀ f ∈ (s.core q.p).flights, f.id < (s.core q.p).nextId) ∧ s.hbmCalm = true

/-- No macro-op of the unit is in flight on the core: MX and VX run one at a time (R445). -/
def UnitIdle (unit : ExecUnit) (p : Nat) (s : State) : Prop := ∀ f ∈ (s.core p).flights, f.kind.unit ≠ unit

/-- The strand has moved on, the macro-op is counted, the rotation stands behind its strand, and no other core has changed (R60). -/
def MovedOn (q : Seat) (t : Nat) (s u : State) : Prop :=
  (u.strand q.p t).pc = (s.strand q.p t).pc + 1 ∧ (u.core q.p).issued = satInc (s.core q.p).issued ∧ (u.core q.p).rot = (t + 1) % 64 ∧
    ∀ p, p ≠ q.p → u.core p = s.core p

/-- The tokens of queue `k` after `m` has taken what it waits for (R65); in scoreboard mode it takes none (R70). -/
def leftIn (q : Seat) (m : MacroOp) (s : State) (k : Nat) : Nat :=
  Tab.get 0 k (s.core q.p).queues - (if q.token = true ∧ k = m.waitQ.val then m.waitN.toNat else 0)

/-- In scoreboard mode, another core of the run still has work (R409): a FRAME_END on this one does not end the run. -/
def RunGoesOn (p : Nat) (s : State) : Prop :=
  ∃ e ∈ s.cores, e.1 ≠ p ∧ e.2.scoreboard = true ∧ e.2.strands.any (fun y => y.2.work) = true

/-- The sequencer's macro-ops (R61, R62, R65, R67, R70): each takes its tokens and posts its own as it issues, and changes its core alone;
FENCE holds its strand while the strand has macro-ops in flight, FRAME_END then ends the strand's work. -/
def Obligations.SequencerMacroOpsIssueAndComplete : Prop :=
  ∀ (s : State) (i : Issue) (m : MacroOp) (q : Seat) (o : RawOp),
    Tab.get 0 m.postQ.val (s.core q.p).queues + m.postN.toNat ≤ 64 →
    (∀ x ∈ [(Instr.nop, 0), (Instr.wait, 1), (Instr.post, 2), (Instr.fence, ocFence), (Instr.frameEnd, ocFrameEnd)], AtHead i x.2 m q o s →
      (x.2 ≠ ocFrameEnd ∨ q.token = true ∨ RunGoesOn q.p s) → Gives (x.1 i m) s fun t =>
        MovedOn q i.strand.val s t ∧
          (∀ k, Tab.get 0 k (t.core q.p).queues = leftIn q m s k + if q.token = true ∧ k = m.postQ.val then m.postN.toNat else 0) ∧
          (t.core q.p).flights = (s.core q.p).flights ∧ Only [.cores] s t) ∧
    (∀ x ∈ [(Instr.nop, 0), (Instr.wait, 1), (Instr.post, 2)], AtHead i x.2 m q o s → Gives (x.1 i m) s fun t =>
      (t.strand q.p i.strand.val).st = .ready ∧ (t.strand q.p i.strand.val).work = true) ∧
    (AtHead i ocFence m q o s → Gives (.fence i m) s fun t =>
      if (s.core q.p).flights.any (fun f => f.strand = i.strand.val) then
        (t.strand q.p i.strand.val).hold = .fence ∧ (t.strand q.p i.strand.val).st = .waitFence
      else (t.strand q.p i.strand.val).hold = .none ∧ (t.strand q.p i.strand.val).st = .ready) ∧
    (AtHead i ocFrameEnd m q o s → (q.token = true ∨ RunGoesOn q.p s) → Gives (.frameEnd i m) s fun t =>
      if (s.core q.p).flights.any (fun f => f.strand = i.strand.val) then
        (t.strand q.p i.strand.val).hold = .frameEnd ∧ (t.strand q.p i.strand.val).work = true
      else (t.strand q.p i.strand.val).work = false ∧ (t.strand q.p i.strand.val).st =
        (if q.token = false ∨ (q.native i.strand.val).length ≤ (s.strand q.p i.strand.val).pc + 1 then .planDone else .frameDone))

/-- What issue on unit `kind` leaves: the strand has moved on, its tokens are taken, and one flight more holds an entry of the unit (R56, R57). -/
def InFlight (q : Seat) (t : Nat) (kind : OpKind) (m : MacroOp) (s u : State) : Prop :=
  MovedOn q t s u ∧ (∀ k, Tab.get 0 k (u.core q.p).queues = leftIn q m s k) ∧
    ∃ f, (u.core q.p).flights = (s.core q.p).flights ++ [f] ∧ f.id = (s.core q.p).nextId ∧ f.strand = t ∧ f.kind = kind ∧ f.withheld = false ∧ f.op = m

/-- The mover's macro-ops (R78, R107, R116, R139): LOAD and STORE copy the tile, GATHER and SCATTER its indexed rows, FILL writes the
converted value; bytes outside what the destination's writes reach are as before. The stored bytes are those of the model's writer of tiles. -/
def Obligations.MoverMacroOpsMoveTheirTiles : Prop :=
  ∀ (s : State) (i : Issue) (m : MacroOp) (q : Seat) (o : RawOp) (d v x : View),
    (s.advanceStrand q i.strand.val o).seatView q m.op0 = some d →
    (∀ w : State, w = s.advanceStrand q i.strand.val o →
      (w.seatView q m.op1 = some v → w.poisonIn v = none →
        (∀ e ∈ [(Instr.load, ocLoad, OpKind.load), (Instr.store, ocStore, OpKind.store)], AtHead i e.2.1 m q o s → Gives (e.1 i m) s fun t =>
          (∀ k, t.byteAt k = (w.putTile d (w.tile v)).byteAt k) ∧ InFlight q i.strand.val e.2.2 m s t ∧ Only [.cores, .hubs, .mem, .poison] s t) ∧
        (w.seatView q m.op2 = some x → w.poisonIn x = none →
          (AtHead i ocGather m q o s → Gives (.gather i m) s fun t =>
            (∀ k, t.byteAt k = (w.copyRows d v (((w.indices x).map (inRange v.d.rows)).zipIdx.map fun e => (e.2, e.1))).byteAt k) ∧
              InFlight q i.strand.val .gather m s t ∧ Only (.cores :: .hubs :: .mem :: .poison :: logging) s t) ∧
          (AtHead i ocScatter m q o s → Gives (.scatter i m) s fun t =>
            (∀ k, t.byteAt k = (w.copyRows d v (lastWins (((w.indices x).map (inRange d.d.rows)).zipIdx.filterMap fun e =>
              e.1.map fun r => (r, some e.2)))).byteAt k) ∧
              InFlight q i.strand.val .scatter m s t ∧ Only (.cores :: .hubs :: .mem :: .poison :: logging) s t))) ∧
      (AtHead i ocFill m q o s → w.replayOf q m.op0 d = none → ∀ c r,
        convertTile d.d m.rnd.toNat (List.replicate d.d.rows (List.replicate d.d.cols (fillValue m.op1))) = (c, r) → Gives (.fill i m) s fun t =>
          (∀ k, t.byteAt k = (w.putTile d c).byteAt k) ∧ (t.core q.p).overflow = ((s.core q.p).overflow || r.overflowed) ∧
            (t.core q.p).saturations = satAdd (s.core q.p).saturations r.sats ∧ InFlight q i.strand.val .fill m s t ∧
            Only (.cores :: .hubs :: .mem :: .poison :: logging) s t))

/-- The matrix and vector macro-ops (R86, R91 to R93, R99, R115, R123, R126, R140 to R143): MMA accumulates the products of its operands into D,
MMAS writes them converted at its output view, VPROG stores what its program gives each element, VRED the canonical tree of each row or
column, and SEED sets the strand's generator context. One that finds another of its unit in flight issues and waits, with no effect yet (R445). -/
def Obligations.MatrixAndVectorMacroOps : Prop :=
  ∀ (s : State) (i : Issue) (m : MacroOp) (q : Seat) (o : RawOp) (d a b : View) (w : State), w = s.advanceStrand q i.strand.val o →
    (w.seatView q m.op0 = some d → w.seatView q m.op1 = some a → w.seatView q m.op2 = some b → (s.core q.p).mxDead = false →
      UnitIdle .mx q.p s → (∀ v ∈ viewsOf (mmaReads m) q w, w.poisonIn v = none) →
      ∀ es, es = MxShape.product
          { int := d.d.fmt = 0xC, fp32 := a.d.fmt = 0, passes := m.pass.toNat, rows := d.d.rows, cols := d.d.cols, depth := a.d.cols }
          (s.arrayRecords q.p) (if opZero m then [] else w.codes d) (w.values a) (w.values b) →
        (AtHead i ocMma m q o s → Gives (.mma i m) s fun t =>
          (∀ k, t.byteAt k = (w.putTile d { codes := es.map fun r => r.map fun x => x.after, scales := [] }).byteAt k) ∧
            (t.core q.p).overflow = ((s.core q.p).overflow || (d.d.fmt ≠ 0xC && es.any fun r => r.any fun x => fpBad x.after)) ∧
            InFlight q i.strand.val .mma m s t ∧ Only (.cores :: .hubs :: .mem :: .poison :: logging) s t) ∧
        (∀ (v : View) (u : State), AtHead i ocMmas m q o s → w.seatView q (withDesc m.op0 (opExt m.op0)) = some v →
          u = (if ceilDiv a.d.cols 64 * (if a.d.fmt = 0 then m.pass.toNat else 1) ≤ 1 then w
            else w.putTile d { codes := es.map fun r => r.map fun x => x.before, scales := [] }) → Gives (.mmas i m) s fun t =>
            (∀ k, t.byteAt k = (u.putTile v (convertTile v.d m.rnd.toNat (es.map fun r => r.map fun x =>
              fromRegister (decide (d.d.fmt = 0xC)) x.after)).1).byteAt k) ∧
              InFlight q i.strand.val .mmas m s t ∧ Only (.cores :: .hubs :: .mem :: .poison :: logging) s t)) ∧
    (∀ (p : List VInstr) (x y : List (List (Nat × Bool))), AtHead i ocVprog m q o s → UnitIdle .vx q.p s → w.seatView q m.op0 = some d →
      q.r.plan.vectors[opExt m.op0]? = some p → x = ((w.seatView q m.op1).map w.elements).getD [] →
      y = ((w.seatView q m.op2).map w.elements).getD [] → (∀ v ∈ viewsOf [m.op1, m.op2] q w, w.poisonIn v = none) →
      w.replayOf q m.op0 d = none → Gives (.vprog i m) s fun t =>
        (∀ k, t.byteAt k = (w.putTile d (convertTile d.d m.rnd.toNat ((List.range d.d.rows).map fun r => (List.range d.d.cols).map fun c =>
          fromRegister d.d.isInt (runLane p { row := r, col := c, a := broadcast x r c, b := broadcast y r c,
                                               draw := ((s.strand q.p i.strand.val).ctx.getD noCtx).draws r c }).1)).1).byteAt k) ∧
          InFlight q i.strand.val .vprog m s t ∧ Only (.cores :: .hubs :: .mem :: .poison :: logging) s t) ∧
    (∀ (lines : List (List Nat)) (vals : List Val), AtHead i ocVred m q o s → UnitIdle .vx q.p s → w.seatView q m.op0 = some d → w.seatView q m.op1 = some a →
      lines = (if m.flags.getLsbD 3 then columns a.d.cols (w.registers a).1 else (w.registers a).1) →
      vals = (lines.zipIdx.map fun e => fromRegister a.d.isInt (if a.d.isInt then
        (reduceInt (m.flags.toNat % 8) (if m.flags.getLsbD 3 then 0 else e.2) e.1).1 else reduceFloat (m.flags.toNat % 8) e.1)) →
      w.poisonIn a = none → w.replayOf q m.op0 d = none → Gives (.vred i m) s fun t =>
        (∀ k, t.byteAt k = (w.putTile d (convertTile d.d m.rnd.toNat
          (if m.flags.getLsbD 3 then [vals] else vals.map fun x => [x])).1).byteAt k) ∧
          InFlight q i.strand.val .vred m s t ∧ Only (.cores :: .hubs :: .mem :: .poison :: logging) s t) ∧
    (AtHead i ocSeed m q o s → UnitIdle .vx q.p s → Gives (.seed i m) s fun t =>
      (t.strand q.p i.strand.val).ctx = some (s.seedCtx q.p m) ∧ InFlight q i.strand.val .seed m s t ∧ Only [.cores] s t) ∧
    ∀ e ∈ [(Instr.mma, ocMma, OpKind.mma), (Instr.mmas, ocMmas, OpKind.mmas), (Instr.vprog, ocVprog, OpKind.vprog),
        (Instr.vred, ocVred, OpKind.vred), (Instr.seed, ocSeed, OpKind.seed)],
      AtHead i e.2.1 m q o s → (∃ f ∈ (s.core q.p).flights, f.kind.unit = e.2.2.unit) → Gives (e.1 i m) s fun t =>
        InFlight q i.strand.val e.2.2 m s t ∧ (∃ f ∈ (t.core q.p).flights, f.id = (s.core q.p).nextId ∧ f.waits.isSome = true) ∧
          Only [.cores] s t

/-- The network unit's macro-ops (R127, R144 to R146): SEND holds its bytes for its circuit's slots; RECV takes the slot held for it or waits
for the next; PUT and GET inject packets toward the target's coordinate; a local CRED writes the sums at once, a network one holds its view for its circuit's slots. -/
def Obligations.NetworkMacroOpsIssue : Prop :=
  ∀ (s : State) (i : Issue) (m : MacroOp) (q : Seat) (o : RawOp) (v : View) (w : State), w = s.advanceStrand q i.strand.val o →
    (AtHead i ocSend m q o s → w.seatView q m.op1 = some v → w.poisonIn v = none → Gives (.send i m) s fun t =>
      InFlight q i.strand.val .send m s t ∧
        (∃ f ∈ (t.core q.p).flights, f.id = (s.core q.p).nextId ∧ f.circuit = opExt m.op0 ∧ f.data = w.serialOf v) ∧ Only [.cores] s t) ∧
    (AtHead i ocRecv m q o s → w.seatView q m.op0 = some v →
      (w.heldFor (opExt m.op0) = none → Gives (.recv i m) s fun t =>
        InFlight q i.strand.val .recv m s t ∧
          (∃ f ∈ (t.core q.p).flights, f.id = (s.core q.p).nextId ∧ f.circuit = opExt m.op0 ∧ f.left = 1) ∧ Only [.cores] s t) ∧
      (∀ h, w.heldFor (opExt m.op0) = some h → Gives (.recv i m) s fun t =>
        InFlight q i.strand.val .recv m s t ∧ (∀ k, t.byteAt k = (w.spliceView v 0 h.slot.payload).byteAt k) ∧
          t.router.slotBuf.length + 1 = s.router.slotBuf.length ∧ Only [.cores, .hubs, .mem, .poison, .router] s t)) ∧
    (∀ (g : Gazetteer) (dest : BitVec 48), s.topo.gaz = some g →
      (g.coord (g.target m.op2) = some dest →
        (AtHead i ocPut m q o s → w.seatView q m.op1 = some v → w.poisonIn v = none → Gives (.put i m) s fun t =>
          InFlight q i.strand.val .put m s t ∧ (t.core q.p).nextMsg = (s.core q.p).nextMsg + 1 ∧
            (∀ p ∈ cutMessage 4096 { w.packetOf q m g dest 1 with destView := m.op0 } (w.serialOf v), Emission.inject p ∈ t.emitted) ∧
            (∃ f ∈ (t.core q.p).flights, f.id = (s.core q.p).nextId ∧ f.msgId = (s.core q.p).nextMsg ∧
              f.left = if m.postN = 0 then (w.serialOf v).length else 0) ∧ Only (.cores :: .router :: logging) s t) ∧
        (AtHead i ocGet m q o s → w.seatView q m.op0 = some v → Gives (.get i m) s fun t =>
          InFlight q i.strand.val .get m s t ∧ (t.core q.p).nextMsg = (s.core q.p).nextMsg + 1 ∧
            Emission.inject (sealPacket { w.packetOf q m g dest 2 with
              destView := m.op1, replyView := m.op0, msgBytes := BitVec.ofNat 32 v.d.serialBytes }) ∈ t.emitted ∧
            (∃ f ∈ (t.core q.p).flights, f.id = (s.core q.p).nextId ∧ f.left = v.d.serialBytes) ∧
            Only (.cores :: .router :: logging) s t))) ∧
    (∀ a b : View, AtHead i ocCred m q o s → w.seatView q m.op0 = some v → w.seatView q m.op1 = some a → w.seatView q m.op2 = some b →
      w.poisonIn a = none → w.poisonIn b = none →
      (opLocal m = true → Gives (.cred i m) s fun t =>
        InFlight q i.strand.val .cred m s t ∧
          (∀ k, t.byteAt k = (w.credNode q v a (decide (w.shardOf (opExt m.op1) ≤ w.shardOf (opExt m.op2))) 0 (w.serialOf b)).byteAt k) ∧
          Only [.cores, .hubs, .mem, .poison] s t) ∧
      (opLocal m = false → w.heldFor (opExt m.op0) = none → Gives (.cred i m) s fun t =>
        InFlight q i.strand.val .cred m s t ∧ (∃ f ∈ (t.core q.p).flights, f.id = (s.core q.p).nextId ∧ f.circuit = opExt m.op0 ∧
          f.data = w.serialOf b ∧ f.left = v.d.serialBytes) ∧ Only [.cores] s t))

/-- R250: a PUT or GET whose target rank is at or above JOB_SIZE, or not VALID, sends nothing: RANK_UNMAPPED is logged with the core as source
and the rank in the detail, every strand of the core stops, and the frame is overrun at once, with the frame-abort of R49, a broadcast
packet of TYPE 6 (R239). -/
def Obligations.UnmappedRankSendsNothingAndOverruns : Prop :=
  ∀ (s : State) (i : Issue) (m : MacroOp) (q : Seat) (o : RawOp) (v : View) (w : State) (g : Gazetteer), w = s.advanceStrand q i.strand.val o →
    s.topo.gaz = some g → (g.jobSize ≤ g.target m.op2 ∨ g.entries.getD (g.target m.op2) none = none) → Quiet s →
    ∀ x ∈ [(Instr.put, ocPut, m.op1), (Instr.get, ocGet, m.op0)], AtHead i x.2.1 m q o s → w.seatView q x.2.2 = some v →
      (x.2.1 = ocPut → w.poisonIn v = none) → Gives (x.1 i m) s fun t =>
        (∀ p, Emission.inject p ∈ t.emitted → Emission.inject p ∈ s.emitted) ∧
          (∀ k, ∀ x ∈ (t.out k).staged, x ∈ (s.out k).staged ∨ x.packet.type = 6) ∧ (∀ k, t.byteAt k = s.byteAt k) ∧
          (entryOf s .rankUnmapped (srcCore q.p) (g.target m.op2) ∈ t.log.first ∨
            entryOf s .rankUnmapped (srcCore q.p) (g.target m.op2) ∈ t.log.ring) ∧
          (t.core q.p).stopped = true ∧ (∀ e ∈ (t.core q.p).strands, e.2.work = true → e.2.st = .halted) ∧
          t.job.overrunSeen = true ∧ t.job.overruns = (if s.job.overrunSeen then s.job.overruns else satInc s.job.overruns) ∧
          (∀ a, s.job.attempt = some a → a.abortFo = none → Emission.frameAbort s.jobTag a.step s.attemptTag s.job.now ∈ t.emitted)

/-- The hub engines' macro-ops complete their issue (R57, R171 to R174, R179, R212, R315) wherever they stand at the head, their hub has a free slot
and what they read carries no poison: TURN writes the transposed tile and joins the hub's order; UPDA writes the canonical tree sum of each
of its accumulators, and its hub's flag takes what they raised; UPDB and UPDS run the update program on their rows and store its results,
where a versioned tensor has no granule with a previous version left (R315). Each holds a slot of its hub. -/
def Obligations.HubMacroOpsIssue : Prop :=
  ∀ (s : State) (i : Issue) (m : MacroOp) (q : Seat) (o : RawOp),
    (∀ d v : View, AtHead i ocTurn m q o s → (s.hub (hubOf q.p)).full = false → s.seatView q m.op0 = some d → s.seatView q m.op1 = some v →
      s.poisonIn v = none → ∃ t, exec (.turn i m) s = .next t ∧
        (∀ k, t.byteAt k = (s.putTile d
          { codes := transpose v.d.cols (s.codes v), scales := if v.d.sfmt = 0 then [] else transpose v.d.scaleCols (s.scales v) }).byteAt k) ∧
        InFlight q i.strand.val .turn m s t ∧
        (t.hub (hubOf q.p)).turnQueue = (s.hub (hubOf q.p)).turnQueue ++ [(q.p, (s.core q.p).nextId)] ∧
        (t.hub (hubOf q.p)).slots = (s.hub (hubOf q.p)).slots + 1 ∧ Only [.cores, .hubs, .mem, .poison] s t) ∧
    (∀ x : UpdSite, s.updSite q m = some x → (s.hub x.t.hub).full = false →
      (∀ (v : View) (lanes : List UpdLane) (sums : List Nat), AtHead i ocUpda m q o s → (∀ r ∈ updReads m ocUpda q s, s.poisonIn r = none) →
        s.seatView q m.op1 = some v → lanes = ((s.updParts q m x).1.flatMap fun r => s.updRow q m x r) →
        (sums = (List.range x.g.nacc).map fun a =>
          let l := lanes.flatMap fun l => (l.accs.filter fun e => e.1 = a).map fun e => e.2
          rne32 (rd32 (treeFold fAdd 0 l.length l))) →
        ∃ t, exec (.upda i m) s = .next t ∧ (∀ k, t.byteAt k = (s.putRow v 0 sums).byteAt k) ∧ InFlight q i.strand.val .upda m s t ∧
          (t.hub x.t.hub).slots = (s.hub x.t.hub).slots + 1 ∧
          (t.hub x.t.hub).overflow = ((s.hub x.t.hub).overflow || sums.any fpBad || lanes.any fun l => l.overflowed) ∧
          Only [.cores, .hubs, .mem, .poison] s t) ∧
      ((x.t.versioned = false ∨ ∀ dk, (s.resolve dk).2.1 = false) →
        (AtHead i ocUpdb m q o s → (∀ r ∈ updReads m ocUpdb q s, s.poisonIn r = none) → ∃ t, exec (.updb i m) s = .next t ∧
          (∀ k, t.byteAt k = (updateEffect q m s).byteAt k) ∧ t.dir = (updateEffect q m s).dir ∧ InFlight q i.strand.val .updb m s t ∧
          (t.hub x.t.hub).slots = (s.hub x.t.hub).slots + 1 ∧ Only (.cores :: .hubs :: .mem :: .poison :: .dir :: .sealSt :: logging) s t) ∧
        (AtHead i ocUpds m q o s → (∀ r ∈ updReads m ocUpds q s, s.poisonIn r = none) → ∃ t, exec (.upds i m) s = .next t ∧
          (∀ k, t.byteAt k = (updateEffect q m s).byteAt k) ∧ t.dir = (updateEffect q m s).dir ∧ InFlight q i.strand.val .upds m s t ∧
          (t.hub x.t.hub).slots = (s.hub x.t.hub).slots + 1 ∧ Only (.cores :: .hubs :: .mem :: .poison :: .dir :: .sealSt :: logging) s t)))

/-- Ends of macro-ops and of code refills (R57, R65, R66, R81, R83, R391): a completion frees the entry and the hub slot, posts the tokens and
clears a fence that waited for it, and one of MX counts the cycles that the arrays held (R90); a refill
whose channel takes requests brings its line into the cache. -/
def Obligations.MacroOpsCompleteAndRefillsEnd : Prop :=
  ∀ (s : State) (core : Fin 120),
    (∀ (q : Seat) (f : Flight), s.seat core.val = some q → q.r.plan.twin = false → (s.core q.p).flights = [f] → s.mayComplete q.p f = true →
      f.withheld = false → (f.kind.unit = .mx → (s.core q.p).mismatch = none) → (∀ h, f.hub = some h → (s.hub h).waiting = []) →
      Tab.get 0 f.postQ (s.core q.p).queues + f.postN ≤ 64 → (s.strand q.p f.strand).hold ≠ .frameEnd →
      Gives (.macroOpCompletion core f.id .none) s fun t =>
        (t.core q.p).flights = [] ∧
          (∀ k, Tab.get 0 k (t.core q.p).queues = Tab.get 0 k (s.core q.p).queues + if k = f.postQ then f.postN else 0) ∧
          (t.strand q.p f.strand).hold = .none ∧ ((s.strand q.p f.strand).hold = .fence → (t.strand q.p f.strand).st = .ready) ∧
          (∀ h, f.hub = some h → (t.hub h).slots = (s.hub h).slots - 1) ∧ (∀ p, p ≠ q.p → t.core p = s.core p) ∧
          (f.kind.unit ≠ .mx → t.free = s.free) ∧
          (f.kind.unit = .mx → (t.core q.p).holds = satAdd (s.core q.p).holds (Config.freeHolds s.free)) ∧ Only [.cores, .hubs, .free] s t) ∧
    (∀ line : Nat, (s.core (s.phys core)).refills.contains line = true → (∀ e ∈ (s.core (s.phys core)).wanted, e.1 ≠ line) →
      s.runPoisoned (codeKey (s.phys core) line 0) 2048 = false → s.hbmCalm = true → Gives (.icacheRefillDone core line .none) s fun t =>
      t.core (s.phys core) = (s.core (s.phys core)).fill line ∧ (t.core (s.phys core)).refills.contains line = false ∧
        ((s.core (s.phys core)).preloads.contains line = false → line ∈ (t.core (s.phys core)).lines) ∧
        (∀ p, p ≠ s.phys core → t.core p = s.core p) ∧ Only [.cores] s t)

/-! ## HBM and links -/

/-- The upkeep of HBM (R196 to R203, R316, R327, R328, R330): a scrubbed block is counted, and one past correction is poisoned, and asked of
the buddy where it holds a current granule of a sheet; a channel due for training trains at once when no job is bound and waits otherwise; with no read
parked at the hub, an ended training is recorded, its detour drains, and a second failure starts the repair, and an ended copy puts the spare in use;
a sweep ends in a frame that is cleared for it, leaves the directory in its resolved form and finishes a rollback; in any other frame it does not end. -/
def Obligations.HbmUpkeepRows : Prop :=
  ∀ (s : State) (h : Fin 8),
    (∀ (k : Fin 93) (row : Nat) (b : Fin 64), row < 524288 → s.hbmUp = true → (s.stack (stackOf h k)).stopped = false → Quiet s →
      (Gives (.scrub h k row [(b, .corrected)]) s fun t =>
        t.stack (stackOf h k) = { s.stack (stackOf h k) with corrected := satInc (s.stack (stackOf h k)).corrected } ∧
          Logged .hbmCorrected (srcStack (stackOf h k)) (hbmDetail k row) s t ∧ Only (.hbmStacks :: logging) s t) ∧
      ((row < s.rowSplit ∨ s.sheetKeyAt h (s.nearOffset k row + 64 * b) = none) → Gives (.scrub h k row [(b, .uncorrectable)]) s fun t =>
        t.stack (stackOf h k) = { s.stack (stackOf h k) with uncorrected := satInc (s.stack (stackOf h k)).uncorrected } ∧
          t.poisonedAt (hbmKey h k row 0 + 64 * b) = true ∧
          Logged .hbmUncorrectable (srcStack (stackOf h k)) (hbmDetail k row) s t ∧ Only (.hbmStacks :: .poison :: logging) s t) ∧
      (∀ key : Nat, s.rowSplit ≤ row → s.sheetKeyAt h (s.nearOffset k row + 64 * b) = some key → 2 ^ 100 ≤ key → key < 2 ^ 101 →
        (s.resolve ((key - 2 ^ 100) / 4096 / 2)).1.toNat = (key - 2 ^ 100) / 4096 % 2 → s.sealSt.asked.contains ((key - 2 ^ 100) / 4096 / 2) = false →
        Gives (.scrub h k row [(b, .uncorrectable)]) s fun t =>
          t.poisonedAt (hbmKey h k row 0 + 64 * b) = true ∧ ∃ held, Emission.sheetAsk ((key - 2 ^ 100) / 4096 / 2) held ∈ t.emitted)) ∧
    (∀ (k : Fin 93) (why : DueCause), s.hbmUp = true → (s.stack (stackOf h k)).stopped = false → (s.hub h).due = [] →
      (why = .temperature → s.movedSince h k = true) → (s.hub h).retraining = none → (s.hub h).repair = none → Gives (.retrainDue h k why) s fun t =>
        t.clock.uptime = (if why = .timer then max s.clock.uptime ((s.lastTraining h k).1 + 10000000000) else s.clock.uptime) ∧
          (t.hub h).due = [(k.val, t.clock.uptime)] ∧ (t.hub h).retraining = (if s.job.bind.isNone then some k.val else none) ∧
          (∀ n, n ≠ h.val → t.hub n = s.hub n) ∧ Only [.hubs, .clock, .power] s t) ∧
    (∀ k : Fin 93, (s.hub h).retraining = some k.val → s.router.parked = [] →
      (s.job.bind.isSome = true → Gives (.retrainDone h k true) s fun t =>
        (t.hub h).retraining = none ∧ (t.hub h).due = ((s.hub h).due.filter fun e => e.1 ≠ k.val) ∧
          (t.hub h).detour = ((s.hub h).detour.filter fun d => d.chan ≠ k.val) ∧
          Tab.get none k.val (t.hub h).trained = some (s.clock.uptime, (s.stack (stackOf h k)).heat.temp) ∧
          (t.stack (stackOf h k)).retrains = satInc (s.stack (stackOf h k)).retrains ∧ Only [.hubs, .hbmStacks, .cores] s t) ∧
      ((s.hub h).retries = 0 → Gives (.retrainDone h k false) s fun t =>
        t.hub h = { s.hub h with retries := 1 } ∧ (∀ n, n ≠ h.val → t.hub n = s.hub n) ∧ Only [.hubs] s t) ∧
      ((s.hub h).retries ≠ 0 → (s.hub h).repair = none → (s.hub h).repairQueue = [] → (s.stack (stackOf h k)).spareUsed = false →
        (s.stack (stackOf h k)).spareBad = false → s.job.bind.isSome = true → Quiet s → Gives (.retrainDone h k false) s fun t =>
          (t.hub h).retraining = none ∧ (t.hub h).repair = some { chan := k, started := s.clock.uptime, blind := true } ∧ (k.val, []) ∈ (t.hub h).blind ∧
            Only (.hubs :: .hbmStacks :: .cores :: logging) s t)) ∧
    (∀ (k : Fin 93) (at_ : Nat), (s.hub h).due = [(k.val, at_)] → (s.hub h).overdue = [] → Quiet s → s.job.attempt.isSome = true →
      Gives (.hbmRetrainOverdue h k) s fun t =>
        t.hub h = { s.hub h with overdue := [k.val] } ∧ t.clock.uptime = max s.clock.uptime (at_ + 30000000000) ∧
          t.log.lastEvent = eventWord Event.hbmRetrainOverdue.info.1 (srcStack (stackOf h k)) Event.hbmRetrainOverdue.info.2 ∧
          Only (.hubs :: .clock :: logging) s t) ∧
    (∀ r : Repair, (s.hub h).repair = some r → s.router.parked = [] → r.blind = false → (s.hub h).repairQueue = [] → (s.job.bind.isSome = true ∨ (s.hub h).due = []) → Quiet s →
      Gives (.hbmRepairDone h []) s fun t =>
      t.hub h = { s.hub h with repair := none, detour := (s.hub h).detour.filter fun d => d.chan ≠ r.chan, turnedAway := 0 } ∧ (t.stack (stackOf h r.chan)).spareUsed = true ∧
        (t.stack (stackOf h r.chan)).replaced = BitVec.ofNat 5 (r.chan % 31) ∧
        Logged .hbmRepairDone (srcStack (stackOf h r.chan)) (hbmDetail r.chan 0) s t ∧ Only (.hubs :: .hbmStacks :: .cores :: logging) s t) ∧
    ((s.hub h).sweeping = true → s.sweepRuns h = false → Gives (.sweepDone h) s (Only [] s)) ∧
    ((s.hub h).sweeping = true → s.sweepRuns h = true → Tab.wf {} s.dir = true → Gives (.sweepDone h) s fun t =>
      (t.hub h).sweeping = false ∧
        ((s.hub h).rollback = true → (t.hub h).commit = (s.hub h).prevCommit ∧ (t.hub h).released = (s.hub h).prevCommit ∧
          (t.hub h).rollback = false ∧ t.sealSt = s.sealSt.rolledStep) ∧
        ((s.hub h).rollback = false → (t.hub h).commit = (s.hub h).commit ∧ t.sealSt = s.sealSt) ∧
        (∀ e ∈ s.dir, Tab.get {} e.1 t.dir =
          if s.dirHub e.1 = h then
            (if (dirParts e.1).2.2.2.1 = 0 then (s.hub h).normalised e.2 else (s.hub h).normalisedBuddy (s.sealSt.brings e.1) e.2)
          else e.2) ∧
        (∀ n, n ≠ h.val → t.hub n = s.hub n) ∧ Only [.hubs, .dir, .power, .sealSt] s t)

/-- Links (R215 to R219, R222 to R225, R296): no light within 10 ms is DARK; a width agreement is answered by this end's own, and gives the width of the
lanes both ends trained; in service a link that is down trains again after 10 s; error rates above their limits, loss of light and exhausted
retry retrain it, and loss of light takes a quiesced one to DARK; the end of training at the full width it had brings it up, with the groups held after
RESUME sent again, and one without a lane takes it down; a group that decodes on every lane is taken in order and frees what it acknowledges, NAK has the
later ones sent again, and a group with a lane that does not decode is discarded, its link field taken from a lane that does; with no new
data a group of idle data goes out after each. -/
def Obligations.LinkRowsTrainAndRetry : Prop :=
  ∀ (s : State) (n : Fin 24),
    ((s.link n).state = .training →
      ((s.link n).inService = false → Gives (.linkDark n) s fun t =>
        t.link n = { s.link n with state := .dark } ∧ t.clock.uptime = max s.clock.uptime ((s.link n).triedAt + 10000000) ∧
          (∀ k, k ≠ n.val → t.link k = s.link k) ∧ Only [.links, .clock] s t) ∧
      (∀ (far own : BitVec 4) (resume : Byte), SideIdle s n → (s.link n).unsent = [] →
        let msg := BitVec.ofNat 128 (4 + far.toNat * 2 ^ 8 + resume.toNat * 2 ^ 16)
        ((s.link n).inService = false → far &&& own = 0xF → s.survey.state.toNat ≤ 1 → Gives (.widthAgreement n msg own) s fun t =>
          (t.link n).state = .up ∧ (t.link n).wide = true ∧ (t.link n).lanesOk = 0xF ∧ (∀ k, k ≠ n.val → t.link k = s.link k) ∧
            Emission.side n (agreement own (s.link n).rxSeq) ∈ t.emitted ∧ Only [.links, .emitted] s t) ∧
        ((s.link n).inService = false → far &&& own = 0xE → s.survey.state.toNat ≤ 1 → Gives (.widthAgreement n msg own) s fun t =>
          (t.link n).state = .up ∧ (t.link n).wide = false ∧ (t.link n).pairB = true ∧ (∀ k, k ≠ n.val → t.link k = s.link k) ∧
            Only (.links :: logging) s t) ∧
        ((s.link n).inService = true → Gives (.widthAgreement n msg own) s fun t =>
          (t.link n).state = .training ∧ (t.link n).farLanes = some far ∧ (t.link n).resume = some resume ∧ (t.link n).held = (s.link n).held ∧
            (∀ k, k ≠ n.val → t.link k = s.link k) ∧ Emission.side n (agreement own (s.link n).rxSeq) ∈ t.emitted ∧ Only [.links, .emitted] s t)) ∧
      ((s.link n).inService = true → s.portOfBonded n = none → s.survey.state.toNat ≤ 1 →
        ((s.link n).farLanes = some 0xF → (s.link n).wide = true → (s.link n).unsent = [] → Gives (.linkRetrainDone n 0xF) s fun t =>
          (t.link n).state = .up ∧ (t.link n).wide = true ∧ (t.link n).inService = false ∧
            (∀ (r : Byte) (side : List Nat) (d : Bytes) (kept : List HeldGroup), (s.link n).resume = some r →
              (s.link n).held = ⟨r, 0, d, side⟩ :: kept →
              (t.link n).held = kept.map (fun g => { g with resent := g.resent + 1 }) ∧
                ∀ g ∈ kept, Emission.group n ((t.link n).codewords g) ∈ t.emitted) ∧ Only [.links, .emitted] s t) ∧
        (∀ own, (s.link n).farLanes = none ∨ own = 0 → Gives (.linkRetrainDone n own) s fun t =>
          (t.link n).state = .down ∧ (t.link n).held = []))) ∧
    (s.inService = true → ((s.link n).state = .down ∨ (s.link n).state = .dark) → (s.link n).lastingDown = false → (s.link n).quiesced = false → Gives (.linkRetryTimer n) s fun t =>
      t.clock.uptime = max s.clock.uptime ((s.link n).triedAt + 10000000000) ∧
        t.link n = { s.link n with
          state := .training, inService := false, farLanes := none, triedAt := t.clock.uptime
          legend := none, verified := none, legendSent := [], partial_ := [] } ∧
        (∀ k, k ≠ n.val → t.link k = s.link k) ∧ Only [.links, .clock] s t) ∧
    ((s.link n).state = .up → Quiet s →
      (∀ a b c d : Nat, a ≤ 10000000 → b ≤ 10000000 → c ≤ 10000000 → d ≤ 10000000 → (s.link n).lanesOk = 0xF →
        Gives (.laneBerWindow n a b c d) s fun t =>
          t.link n = { s.link n with berWorst := BitVec.ofNat 32 (max (max a b) (max c d)) } ∧ (∀ k, k ≠ n.val → t.link k = s.link k) ∧
            Only [.links] s t) ∧
      (∀ a : Nat, 100000000 < a → (s.link n).lanesOk = 0xF → (s.link n).quiesced = false → Gives (.laneBerWindow n a 0 0 0) s fun t =>
        (t.link n).state = .training ∧ (t.link n).inService = true ∧ (t.link n).retrains = satInc (s.link n).retrains ∧
          (t.link n).held = (s.link n).held ∧ Only (.links :: logging) s t) ∧
      (∀ lane : Fin 4, (s.link n).lanesOk.getLsbD lane.val = true → (s.link n).quiesced = false → Gives (.laneLightLoss n lane) s fun t =>
        (t.link n).state = .training ∧ (t.link n).inService = true ∧ Logged .linkRetrain (srcLink n) 2 s t ∧ Only (.links :: logging) s t) ∧
      (∀ lane : Fin 4, (s.link n).lanesOk.getLsbD lane.val = true → (s.link n).quiesced = true → (s.link n).unsent = [] →
        Gives (.laneLightLoss n lane) s fun t =>
          (t.link n).state = .dark ∧ t.log = s.log ∧ (∀ k, k ≠ n.val → t.link k = s.link k) ∧ Only [.links, .mer, .router] s t) ∧
      ((∃ g ∈ (s.link n).held, 8 ≤ g.resent) → (s.link n).quiesced = false → Gives (.linkRetryExhausted n) s fun t =>
        (t.link n).state = .training ∧ (t.link n).inService = true ∧ (t.link n).held = (s.link n).held ∧ Only (.links :: logging) s t) ∧
      (∀ (cs : List Codeword) (c : Codeword) (ack : Byte) (d : Bytes) (kept : List HeldGroup) (sides : List Nat) (side : Nat), cs.length = (s.link n).lanes.length →
        cs.find? codewordDecodes = some c → (s.link n).unsent = [] → (s.link n).held = ⟨ack, 0, d, sides⟩ :: kept →
        ((∀ x ∈ cs, codewordDecodes x = true) →
          (c.link = linkField ((s.link n).rxSeq + 1) ack false side → Gives (.groupReceived n ⟨cs⟩) s fun t =>
            t.link n = { s.link n with held := kept, rxSeq := (s.link n).rxSeq + 1, nak := false } ∧ (∀ k, k ≠ n.val → t.link k = s.link k) ∧
              t.emitted.length = s.emitted.length + 1 ∧ Only [.links, .emitted] s t) ∧
          (c.link = linkField (s.link n).rxSeq ack true side → (∀ g ∈ kept, g.seq ≠ ack) → Gives (.groupReceived n ⟨cs⟩) s fun t =>
            t.link n = { s.link n with held := kept.map fun g => { g with resent := g.resent + 1 }, retries := satAdd (s.link n).retries kept.length } ∧
              t.emitted.length = s.emitted.length + kept.length + 1 ∧ (∀ k, k ≠ n.val → t.link k = s.link k) ∧ Only [.links, .emitted] s t)) ∧
        ((∃ x ∈ cs, codewordDecodes x = false) → ∀ seq : Byte, c.link = linkField seq ack false side → Gives (.groupReceived n ⟨cs⟩) s fun t =>
          t.link n = { s.link n with
            held := kept, nak := true, uncorrectable := satAdd (s.link n).uncorrectable (cs.filter fun x => !codewordDecodes x).length } ∧
            (∀ k, k ≠ n.val → t.link k = s.link k) ∧ t.emitted.length = s.emitted.length + 1 ∧ Only [.links, .emitted] s t)) ∧
      (∀ cs : List Codeword, cs.length = (s.link n).lanes.length → (s.link n).unsent = [] → (∀ c ∈ cs, codewordDecodes c = false) → Gives (.groupReceived n ⟨cs⟩) s fun t =>
        t.link n = { s.link n with nak := true, uncorrectable := satAdd (s.link n).uncorrectable cs.length } ∧
          (∀ k, k ≠ n.val → t.link k = s.link k) ∧ t.emitted.length = s.emitted.length + 1 ∧ Only [.links, .emitted] s t))

/-! ## Circuits and packets -/

/-- A link's transmitter has nothing of its own waiting, and its retry buffer has room for `n` bytes more (R219). -/
def LinkFree (s : State) (link n : Nat) : Prop :=
  (s.link link).state = .up ∧ (s.link link).unsent = [] ∧ (s.link link).held.length + ceilDiv n (s.link link).groupBytes ≤ 128

/-- `e` has left, after the groups of link `link` that carry its bytes (R217, R219). -/
def SentOn (link : Nat) (e : Emission) (s t : State) : Prop :=
  ∃ gs : List (List (BitVec 20 × Bytes)), t.emitted = e :: gs.map (Emission.group link) ++ s.emitted

/-- Circuit slots (R45, R66, R144, R240, R241, R243, R247): a slot of the running plan leaves with the next bytes of the SEND on its circuit and
a check word that holds; a transit slot of a plan leaves unchanged at its scheduled start; a direct slot that arrives in time lands at its SEND's view
and posts its tokens; one of another job or attempt is stale. -/
def Obligations.SlotsLeaveForwardAndLand : Prop :=
  ∀ s : State,
    (∀ (c : Byte) (w : Nat) (r : Resident) (x : Span) (link : Nat) (f : Flight), s.ownSpan c.toNat w = some (r, x, [link]) →
      s.sender (s.coreFor r.plan.twin x.circuit.srcCore) x.circuit.id = some f → f.kind = .send → LinkFree s link (x.entry.payload + 96) →
      Gives (.slotTransmit c w) s fun t =>
        (∃ sl, SentOn link (.slot link (s.slotTime x.start) sl) s t ∧ sl.payload = f.data.take x.entry.payload ∧ slotOk sl = true ∧
          sl.circuit = BitVec.ofNat 8 x.circuit.id ∧ sl.jobTag = s.jobTag ∧ sl.attempt = s.attemptTag ∧
          sl.lastSlot = (f.data.drop x.entry.payload).isEmpty) ∧
          (Steady s → t.clock.meridian = max s.clock.meridian (ceilDiv (s.slotTime x.start) 100)) ∧
          (t.core (s.coreFor r.plan.twin x.circuit.srcCore)).flights = ((s.core (s.coreFor r.plan.twin x.circuit.srcCore)).flights.map fun g =>
            if g.id = f.id then { g with data := f.data.drop x.entry.payload } else g) ∧
          (∀ n, n ≠ link → t.link n = s.link n) ∧ Only [.clock, .cores, .links, .emitted] s t) ∧
    (∀ (n : Fin 24) (h : HeldSlot) (out at_ : Nat), s.router.slotBuf = [h] → h.link = n → h.slot.dstCore ≠ firmwareCore → h.forward = some ([out], at_) →
      LinkFree s out (h.slot.payload.length + 96) → Gives (.slotForward n h.slot.circuit) s fun t =>
        SentOn out (.slot out at_ h.slot) s t ∧ t.router.slotBuf = [] ∧
          (Steady s → t.clock.meridian = max s.clock.meridian (ceilDiv at_ 100)) ∧ (∀ k, k ≠ out → t.link k = s.link k) ∧
          Only [.clock, .router, .links, .emitted] s t) ∧
    (∀ (n : Fin 24) (at_ : Nat) (sl : Slot) (q : Nat), s.portOfBonded n = some q → s.carries n = true → slotOk sl = true →
      ((s.job.bind = none ∨ sl.jobTag ≠ s.jobTag ∨ sl.attempt ≠ s.attemptTag) → Gives (.slotArrival n at_ sl) s fun t =>
        t.router = { s.router with stale := satInc s.router.stale } ∧ (Steady s → t.clock.meridian = max s.clock.meridian (at_ / 100)) ∧
          Only [.clock, .router] s t) ∧
      (∀ (y : Span) (opens : Nat) (r : Resident) (v : Variant) (fr : Nat) (d : Dispatch) (o : RawOp) (off : Nat) (w : View), s.job.bind.isSome = true →
        sl.jobTag = s.jobTag → sl.attempt = s.attemptTag → sl.dstCore ≠ firmwareCore →
        s.expected n (opposite (s.port q).bearing.toNat) sl.circuit.toNat at_ = some (y, opens) → judgeArrival at_ opens y.len = .onTime →
        y.hop = y.circuit.hops → y.circuit.mode = 0 → s.runningPlan = some (r, v, fr) → s.job.running = some d → r.plan.twin = false →
        (∀ z, s.seat y.circuit.dstCore = some z → z.r.plan.twin = false) → (s.core (s.coreFor false y.circuit.dstCore)).inReset = false →
        y.target v r.plan.sentBytes = some (o, off) → s.view? (s.coreFor false y.circuit.dstCore) d.slot r.plan o.op.op0 = some w →
        Tab.get 0 sl.postQ.toNat (s.core (s.coreFor false y.circuit.dstCore)).queues + sl.postN.toNat ≤ 64 → Gives (.slotArrival n at_ sl) s fun t =>
          (∀ k, t.byteAt k = (s.spliceView w off sl.payload).byteAt k) ∧ t.job = { s.job with delivered := (y.circuit.id, y.window) :: s.job.delivered } ∧
            (∀ k, Tab.get 0 k (t.core (s.coreFor false y.circuit.dstCore)).queues =
              Tab.get 0 k (s.core (s.coreFor false y.circuit.dstCore)).queues + if k = sl.postQ.toNat then sl.postN.toNat else 0) ∧
            Only [.clock, .cores, .job, .hubs, .hbmStacks, .mem, .poison] s t))

/-- The router's rows (R245, R247, R251 to R253, R255 to R258): a staged packet leaves on a link of its port and takes one credit, of an adaptive
buffer where it may use one, else of an escape buffer; without credit, and with no other way, the cycle is a stall; a credit flit sets the counts; an arriving packet for this module is ejected and its buffer's credit returned at
once, another holds its buffer in the port that its route names, and one whose header fails its check is dropped and logged. -/
def Obligations.RouterRowsMovePackets : Prop :=
  ∀ (s : State) (q : Fin 12), (s.port q).state.bonded = true →
    (∀ x : Staged, (s.out q).staged = [x] → x.entering = false → x.adaptive = false → x.buffer = none → x.copy = none →
      (∀ link, s.adaptsAt q x = true → 1 ≤ (s.out q).adp.getD x.packet.vc.toNat 0 → s.linkFor q x.packet = some link →
        s.meetsSpan (s.port q).bearing.toNat link x.packet = false → LinkFree s link (packetBytes x.packet).length → Gives (.packetSend q) s fun t =>
          SentOn link (.packet link x.packet) s t ∧ (t.out q).staged = [] ∧
            (t.out q).adp.getD x.packet.vc.toNat 0 = (s.out q).adp.getD x.packet.vc.toNat 0 - 1 ∧ (t.out q).esc = (s.out q).esc ∧
            (∀ n, n ≠ q.val → t.out n = s.out n) ∧ (∀ n, n ≠ link → t.link n = s.link n) ∧ Only [.router, .links, .emitted] s t) ∧
      (∀ link, s.adaptsAt q x = false → s.onDetStep q x = true → 1 ≤ (s.out q).esc.getD x.packet.vc.toNat 0 → s.linkFor q x.packet = some link →
        s.meetsSpan (s.port q).bearing.toNat link x.packet = false → LinkFree s link (packetBytes x.packet).length → Gives (.packetSend q) s fun t =>
          SentOn link (.packet link x.packet) s t ∧ (t.out q).staged = [] ∧ (t.out q).txPackets = satInc (s.out q).txPackets ∧
            (t.out q).esc.getD x.packet.vc.toNat 0 = (s.out q).esc.getD x.packet.vc.toNat 0 - 1 ∧ (t.out q).adp = (s.out q).adp ∧
            (∀ n, n ≠ q.val → t.out n = s.out n) ∧ (∀ n, n ≠ link → t.link n = s.link n) ∧ Only [.router, .links, .emitted] s t) ∧
      (s.adaptsAt q x = false → s.adaptiveStep s.ownCoord x = none → s.onDetStep q x = true → (s.out q).esc.getD x.packet.vc.toNat 0 = 0 → Gives (.packetSend q) s fun t =>
        t.out q = { s.out q with creditStalls := satInc (s.out q).creditStalls } ∧ Only [.router] s t)) ∧
    (∀ (e : BitVec 8) (a : BitVec 4), Gives (.creditFlit q e a) s fun t =>
      (∀ v < 4, (t.out q).esc.getD v 0 = e.toNat / 4 ^ v % 4) ∧ (∀ v < 2, (t.out q).adp.getD v 0 = a.toNat / 4 ^ v % 4) ∧
        (t.out q).staged = (s.out q).staged ∧ (∀ n, n ≠ q.val → t.out n = s.out n) ∧ Only [.router] s t) ∧
    (∀ (p : Packet) (adaptive : Bool),
      (packetHeaderOk p = true → 0 < p.type.toNat → p.type.toNat < 8 → p.type ≠ 6 →
        (p.coord = s.ownCoord → Gives (.packetArrival q ⟨p, adaptive⟩) s fun t =>
          t.router.ejected = satInc s.router.ejected ∧ (∀ n, t.out n = s.out n) ∧
            t.emitted = .credit q (s.out q).escFree (s.out q).adpFree :: s.emitted ∧ Only [.router, .emitted] s t) ∧
        (∀ b o, p.coord ≠ s.ownCoord → p.ordered = true → detStep s.rings s.ownCoord (some (s.port q).bearing.toNat) p = some b →
          s.bondedPort b = some o → Gives (.packetArrival q ⟨p, adaptive⟩) s fun t =>
            (t.out o).staged = (s.out o).staged ++
              [{ packet := p, entering := entersRing (some (s.port q).bearing.toNat) b, adaptive := false, from_ := some (s.port q).bearing.toNat
                 buffer := some (q.val, adaptive), counted := true }] ∧
              t.router.forwarded = satInc s.router.forwarded ∧
              (t.out q).escUsed = (if adaptive then (s.out q).escUsed else
                setAt p.vc.toNat ((s.out q).escUsed.getD p.vc.toNat 0 + 1) (s.out q).escUsed) ∧
              (∀ n, n ≠ o → n ≠ q.val → t.out n = s.out n) ∧ Only [.router] s t)) ∧
      (packetHeaderOk p = false → Quiet s → Gives (.packetArrival q ⟨p, adaptive⟩) s fun t =>
        t.router.hcrcErrors = satInc s.router.hcrcErrors ∧ (∀ n, t.out n = s.out n) ∧ Logged .headerCrc (srcLinkDie (s.portDie q)) 0 s t ∧
          Only (.router :: logging) s t))

/-- Packets at their destination (R145, R246, R247): a PUT without posts lands at its view and is acknowledged to its sender; a packet of
another job, no broadcast, changes nothing and one of another attempt is stale; a landing acknowledgement is counted toward the PUT that waits for it, and
the last one ends it. -/
def Obligations.DeliveriesLandAndAcknowledge : Prop :=
  ∀ (s : State) (p : Packet), packetHeaderOk p = true → p.coord = s.ownCoord →
    (∀ n : Fin 24,
      (p.jobTag ≠ s.jobTag → p.type ≠ 6 → Gives (.packetDelivery p n .none) s (Only [] s)) ∧
      (p.jobTag = s.jobTag → (p.type = 1 ∨ p.type = 2 ∨ p.type = 3) → p.vc ≠ 2 →
        (p.attempt ≠ s.attemptTag → Gives (.packetDelivery p n .none) s fun t =>
          t.router = { s.router with stale := satInc s.router.stale } ∧ Only [.router] s t) ∧
        (∀ (v : View) (g : Gazetteer) (dest : BitVec 48), p.attempt = s.attemptTag → p.type = 1 →
          s.packetView (packetViewCore p) p.destView = some v → s.inResetTile (packetViewCore p) v = false → packetPayloadOk p = true →
          p.poison = false → p.postN = 0 → p.aop = 0 → s.unserved (s.viewKeys v) = false → s.topo.gaz = some g → g.coord p.srcRank.toNat = some dest →
          (∀ z, s.seat (packetViewCore p) = some z → z.r.plan.twin = false) → Gives (.packetDelivery p n .none) s fun t =>
            (∀ k, t.byteAt k = (s.spliceView v p.offset.toNat p.payload).byteAt k) ∧
              Emission.inject (sealHeader { type := 7, vc := 1, jobTag := p.jobTag, coord := dest, destCore := p.srcCore
                                            srcRank := BitVec.ofNat 17 g.selfRank, attempt := p.attempt, msgId := p.msgId, bytes := p.bytes }) ∈ t.emitted ∧
              Only (.hubs :: .hbmStacks :: .mem :: .poison :: .router :: logging) s t))) ∧
    (∀ f : Flight, p.type = 7 → p.jobTag = s.jobTag → p.attempt = s.attemptTag → p.destCore.toNat ≠ noCore →
      (s.core (s.destCore p.destCore.toNat)).flights = [f] → f.kind = .put → f.msgId = p.msgId → f.data = [] →
      (p.bytes.toNat < f.left → Gives (.landingAck p) s fun t =>
        (t.core (s.destCore p.destCore.toNat)).flights = [{ f with left := f.left - p.bytes.toNat }] ∧
          (∀ n, n ≠ s.destCore p.destCore.toNat → t.core n = s.core n) ∧ Only [.cores] s t) ∧
      (f.left = p.bytes.toNat → f.hub = none → f.postN = 0 → s.seat p.destCore.toNat = none → Gives (.landingAck p) s fun t =>
        (t.core (s.destCore p.destCore.toNat)).flights = [] ∧ (∀ n, n ≠ s.destCore p.destCore.toNat → t.core n = s.core n) ∧ Only [.cores] s t))

/-! ## The seal and the cartouche -/

/-- The vote and the decision of a step (R317 to R321): a vote of the step is combined with the module's; the root's last one decides, COMMIT where
every module of the job votes so, and one that it reaches at or after the window's deadline is missing to it too (R48, R53); a unit that does not report votes ABORT with INTEGRITY; a decision in the window is held; a commit that a
peer missed is rolled back in every hub, where the step in progress has been stopped already. -/
def Obligations.VotesDecideAndMissedCommitsRollBack : Prop :=
  ∀ (s : State) (m : SealMsg),
    (∀ (v : VoteState) (n : Fin 24) (q : Nat), s.sealSt.vote = some v → s.portOfBonded n = some q → s.ours m v.epoch = true →
      ((∃ r, r ≠ q ∧ r ∈ v.waiting) → q ∈ v.waiting → Gives (.vote n m) s fun t =>
        t.sealSt = { s.sealSt with vote := some { v with
          abort := v.abort || m.verdict, cause := v.cause ||| m.cause, count := v.count + m.count.toNat, integ := satAdd v.integ m.integ.toNat
          granules := min (v.granules + m.granules.toNat) (2 ^ 64 - 1), waiting := v.waiting.filter fun p => p ≠ q } } ∧ Only [.sealSt] s t) ∧
      (v.waiting = [q] → v.sent = false → v.unitsOpen = false → s.isRoot = true → Gives (.vote n m) s fun t =>
        (s.windowOpenAt = true →
          t.sealSt.decision = some (v.abort || m.verdict || decide (v.count + m.count.toNat ≠ s.jobSize), v.cause ||| m.cause)) ∧
          (s.windowOpenAt = false → t.sealSt.decision = s.sealSt.decision) ∧
          (∃ d, t.emitted = .broadcast kindDecision d :: s.emitted ∧
            d.verdict = (v.abort || m.verdict || decide (v.count + m.count.toNat ≠ s.jobSize)) ∧ d.cause = v.cause ||| m.cause ∧ d.step = v.step) ∧
          Only [.sealSt, .router, .emitted] s t) ∧
      (v.waiting.contains q = false → Gives (.vote n m) s (Only [] s))) ∧
    (∀ v : VoteState, s.sealSt.vote = some v → v.unitsOpen = true → v.waiting ≠ [] → Gives .unitReportTimeout s fun t =>
      t.sealSt = { s.sealSt with vote := some { v with unitsOpen := false, abort := true, cause := v.cause ||| causeIntegrity } } ∧
        (Steady s → t.clock.meridian = max s.clock.meridian (v.at_ + 1000)) ∧ Only [.clock, .sealSt] s t) ∧
    (∀ v : VoteState, s.sealSt.vote = some v → s.sealSt.decision = none → s.topo.reshape = none →
      (s.ours m v.epoch = true → s.windowOpenAt = true → Gives (.decision m) s fun t =>
        t.sealSt = { s.sealSt with decision := some (m.verdict, m.cause), sealNs := BitVec.ofNat 32 (s.clock.meridian - v.at_) } ∧
          Only [.sealSt] s t) ∧
      (s.ours m v.epoch = false → Gives (.decision m) s (Only [] s))) ∧
    (∀ (k : Commit) (a : Attempt), s.missedCommit m = some k → s.job.attempt = some a → a.abortFo.isSome = true → Gives (.sealMissed m) s fun t =>
      (∀ h < 8, (t.hub h).rollback = true ∧ (t.hub h).sweeping = true ∧ (t.hub h).commit = (s.hub h).commit) ∧
        t.sealSt.commits = (s.sealSt.commits.filter fun c => c.epoch ≠ s.lastEpoch) ∧ t.sealSt.rollbacks = satInc s.sealSt.rollbacks ∧
        (∀ c rest, (s.sealSt.commits.filter fun c => c.epoch ≠ s.lastEpoch) = c :: rest →
          t.regs.lossScale = c.fields.1 ∧ t.regs.goodSteps = c.fields.2.2.1 ∧ t.regs.latchedStep = c.latched) ∧
        (∀ d ∈ t.job.dispatches, d.step = k.step → (s.sealSt.commits.any fun c => c.epoch = s.lastEpoch && c.step = k.step) = true → d.done = false) ∧
        Only (.hubs :: .sealSt :: .regs :: .job :: .mem :: .poison :: logging) s t)

/-- Confirmation, buddy copies and restored sheets (R321 to R328): at the confirmation tick the step's dispatch completes and its copy starts;
a copy that has arrived whole becomes current in the buddy area and is acknowledged, and one whose check word fails or that lacks granules is asked
for again, once; acknowledgements and
BUDDY_DONE are counted, and RELEASE is taken in every hub; a granule asked for is answered from the buddy area, without its bytes where it is
poisoned or the area is older, one that the partner holds poisoned is sent again with the next copy, and one received is written. -/
def Obligations.CommitsAreConfirmedCopiedAndReleased : Prop :=
  ∀ (s : State) (m : SealMsg),
    (∀ (f : Nat) (k : Commit) (d : Dispatch) (c : Cmd) (fl : InFlightCmd), s.sealSt.confirming = [(f, k)] → (f : Int) ≤ s.job.frame →
      s.job.dispatches = [d] → d.done = true → d.step = k.step → d.tag = c.tag → (s.mbox 1).inFlight = [fl] → fl.tag = c.tag →
      (s.mbox 1).dropped = [] → s.cofin.up = true → (s.mbox 1).noRoom = false →
      (k.skipped = true → Gives .confirmationTick s fun t =>
        Completed 1 c 0 [] s t ∧ t.job.dispatches = [] ∧ t.sealSt.confirming = [] ∧ t.sealSt.copyOut = s.sealSt.copyOut ∧
          Only (.sealSt :: .job :: completing) s t) ∧
      (k.skipped = false → s.buddy.isSome = true → s.sealSt.copyOut = none → Gives .confirmationTick s fun t =>
        Completed 1 c 0 [] s t ∧ t.job.dispatches = [] ∧ t.sealSt.confirming = [] ∧ t.sealSt.confirmed = some k.epoch ∧
          (∃ keys, t.sealSt.copyOut = some (k.epoch, keys) ∧ (s.topo.fresh = false → keys = joinKeys s.sealSt.flipped s.sealSt.again)) ∧
          Only (.sealSt :: .job :: .sec :: completing) s t)) ∧
    (∀ (e : Word) (keys : List Nat), s.sealSt.copyIn = some (e.toNat, keys) → (e.toNat = s.lastEpoch ∨ e.toNat = (s.hub 0).prevCommit) →
      (keys.Nodup → keys.length = s.sealSt.copyInTotal → Gives (.buddyCopyDone e true) s fun t =>
        t.sealSt.copyIn = none ∧ t.sealSt.buddyEpoch = e.toNat ∧ t.sealSt.buddyPrev = s.sealSt.buddyEpoch ∧
          (∀ k ∈ keys, Tab.get {} k t.dir = { cur := !(s.resolve k).1, prv := true, frs := false, epoch := BitVec.ofNat 24 e.toNat }) ∧
          (∀ k, k ∉ keys → Tab.get {} k t.dir = Tab.get {} k s.dir) ∧
          (∀ q c, s.buddyPort = some q → s.buddyCoord = some c →
            Emission.sealUp q kindAck (s.sealMsg s.sealSt.commitStep e.toNat) ∈ t.emitted) ∧
          Only (.sealSt :: .dir :: .router :: logging) s t) ∧
      (∀ ok, (ok = false ∨ keys.length ≠ s.sealSt.copyInTotal) →
        (s.sealSt.resendFor ≠ some e.toNat → Quiet s → Gives (.buddyCopyDone e ok) s fun t =>
          t.sealSt = { s.sealSt with resendFor := some e.toNat } ∧ Logged .buddyResend (srcLink s.buddyLink) 0 s t ∧ Only (.sealSt :: logging) s t) ∧
        (s.sealSt.resendFor = some e.toNat → Gives (.buddyCopyDone e ok) s (Only [] s)))) ∧
    (∀ (e : Nat) (keys : List Nat), s.sealSt.copyOut = some (e, keys) → s.ours m e = true →
      (s.sealSt.doneWaiting ≠ [] ∨ (e ≠ s.lastEpoch ∧ s.sealSt.ownDone = false)) → Gives (.buddyAck m) s fun t =>
        t.sealSt = { s.sealSt with
          copyOut := s.sealSt.copyQueued, copyQueued := none, copySent := 0, ownDone := s.sealSt.ownDone || decide (e = s.lastEpoch) } ∧
          Only [.sealSt] s t) ∧
    (∀ (n : Fin 24) (q : Nat), s.portOfBonded n = some q → s.ours m s.lastEpoch = true → q ∈ s.sealSt.doneWaiting → s.sealSt.ownDone = false →
      Gives (.buddyDone n m) s fun t =>
        t.sealSt = { s.sealSt with
          doneCount := s.sealSt.doneCount + m.count.toNat, doneWaiting := s.sealSt.doneWaiting.filter fun p => p ≠ q } ∧ Only [.sealSt] s t) ∧
    (s.ours m s.lastEpoch = true → s.released = false → (s.hub 0).rollback = false → s.cartoucheBound = false → s.sec.waiting = [] →
      Gives (.release m) s fun t =>
        (∀ h < 8, t.hub h = { s.hub h with released := (s.hub h).commit }) ∧ t.topo = { s.topo with fresh := false } ∧
          Only [.hubs, .topo] s t) ∧
    (∀ (g : Nat) (held : Word), s.job.bind.isSome = true →
      (g = buddyKey g → Gives (.sheetRestoreRequest g held) s fun t =>
        t.sealSt = { s.sealSt with again := joinKeys s.sealSt.again [ownKey g] } ∧ Only [.sealSt] s t) ∧
      (g ≠ buddyKey g → s.runPoisoned (s.currentKey (buddyKey g)) 4096 = true → Gives (.sheetRestoreRequest g held) s fun t =>
        Emission.sheetReply g none ∈ t.emitted) ∧
      (g ≠ buddyKey g → held.toNat ≤ s.sealSt.buddyEpoch → s.runPoisoned (s.currentKey (buddyKey g)) 4096 = false → Gives (.sheetRestoreRequest g held) s fun t =>
        Emission.sheetReply g (some ((List.range 4096).map fun i => s.byteAt (s.currentKey (buddyKey g) + i))) ∈ t.emitted ∧
          Only (.router :: logging) s t) ∧
      (g ≠ buddyKey g → s.sealSt.buddyEpoch < held.toNat → s.runPoisoned (s.currentKey (buddyKey g)) 4096 = false → Gives (.sheetRestoreRequest g held) s fun t =>
        Emission.sheetReply g none ∈ t.emitted ∧ Only (.router :: logging) s t)) ∧
    (∀ (g : Nat) (d : Bytes), g ∈ s.sealSt.asked → d.length = 4096 → Gives (.sheetRestored g (some d)) s fun t =>
      (∀ i < 4096, t.byteAt (s.currentKey g + i) = d.getD i 0) ∧
        (∀ k, (k < s.currentKey g ∨ s.currentKey g + 4096 ≤ k) → t.byteAt k = s.byteAt k) ∧ t.sealSt.restores = satInc s.sealSt.restores ∧
        Only (.sealSt :: .mem :: .poison :: .hubs :: .hbmStacks :: logging) s t)

/-- CARTOUCHE_FETCH (R407, R427, R428): with digests kept, the last commit's cartouche of a level-3 step is written signed once its RELEASE
holds, and waits for it before; without the cartouche it completes with 0x0503, for another step with 0x0212, for another level with 0x0201. -/
def Obligations.CartoucheFetchAnswersTheLastCommit : Prop :=
  ∀ (s : State) (c : Cmd) (step : Word) (manifest : Bytes) (k : Commit), Fetched 4 0x0405 c s →
    (s.cartoucheAllowed = false → Gives (.cartoucheFetch c step manifest) s fun t => Completed 4 c 0x0503 [] s t ∧ Only completing s t) ∧
    (s.cartoucheAllowed = true → s.sealSt.commits = [k] → k.skipped = false →
      (k.step ≠ step → Gives (.cartoucheFetch c step manifest) s fun t => Completed 4 c 0x0212 [] s t ∧ Only completing s t) ∧
      (k.step = step → k.level ≠ 3 → Gives (.cartoucheFetch c step manifest) s fun t => Completed 4 c 0x0201 [] s t ∧ Only completing s t) ∧
      (k.step = step → k.level = 3 → s.released = false → Gives (.cartoucheFetch c step manifest) s fun t =>
        t.sec = { s.sec with waiting := s.sec.waiting ++ [⟨c, step, manifest⟩] } ∧ (∃ f, (t.mbox 4).inFlight = [f] ∧ f.tag = c.tag ∧ f.begun = true) ∧
          Only [.sec, .mboxes] s t) ∧
      (k.step = step → k.level = 3 → s.released = true → (s.cartouche k false manifest).length + 64 ≤ c.length.toNat →
        Gives (.cartoucheFetch c step manifest) s fun t =>
          Completed 4 c 0 (s.cartouche k false manifest ++ leBytes 64 (Config.signature s.sec.signed (s.cartouche k false manifest)).toNat) s t ∧
            t.sec = { s.sec with signed := s.sec.signed + 1 } ∧ Only (.sec :: completing) s t))

/-! ## The Ethernet gateway -/

/-- The gateway's rows (R232 to R236): a transceiver's power class keeps its port down above 30 W; the link comes up and goes down; a tunnel takes
packets in sequence, acknowledges, frees what is acknowledged and resends the rest, and after 8 resends fails; a queue pair takes its packets
in sequence, and stores, reads or receives their data, answering each, while the HBM serves requests; a marked packet draws a congestion notification, and one received is
counted. -/
def Obligations.GatewayPortsTunnelsAndQueuePairs : Prop :=
  ∀ (s : State) (g : Fin 2),
    (∀ dw : Nat,
      (dw ≤ 300 → (s.gw g).state ≠ 2 → Gives (.gatewayModule g dw) s fun t =>
        t.gw g = { s.gw g with powerClass := BitVec.ofNat 8 (dw / 10), lowPower := false, state := 1 } ∧ Only [.gws] s t) ∧
      (300 < dw → Quiet s → Gives (.gatewayModule g dw) s fun t =>
        t.gw g = { s.gw g with powerClass := BitVec.ofNat 8 (min 255 (dw / 10)), lowPower := true, state := 1 } ∧
          Logged .gatewayModule (srcGateway g) 0 s t ∧ Only (.gws :: logging) s t)) ∧
    (s.gwEnabled = true → (s.gw g).state = 1 → (s.gw g).lowPower = false → Gives (.gatewayLinkUp g) s fun t =>
      t.gw g = { s.gw g with state := 2 } ∧ Only [.gws] s t) ∧
    ((s.gw g).state = 2 → Quiet s → Gives (.gatewayLinkDown g) s fun t =>
      t.gw g = { s.gw g with state := 1 } ∧ Logged .gatewayLinkDown (srcGateway g) 0 s t ∧ Only (.gws :: logging) s t) ∧
    (∀ (x : Tunnel) (i : BitVec 16), s.gwState g = 2 → (s.gw g).tunnels = [x] → x.index = i.toNat → x.failed = false → x.waiting = [] →
      (∀ seq ack : Word, Gives (.tunnelPacket g i x.jobTag seq ack none) s fun t =>
        (∃ y, (t.gw g).tunnels = [y] ∧ y.unacked = (x.unacked.filter fun e => !seqBefore e.1 ack) ∧ y.rxNext = x.rxNext) ∧
          (t.gw g).rxBytes = satAdd (s.gw g).rxBytes (tunnelBytes (s.gw g).ipv6 none) ∧ Only [.gws] s t) ∧
      (∀ (ack : Word) (p : Packet), packetHeaderOk p = true → p.type ≠ 6 → p.coord = s.ownCoord →
        Gives (.tunnelPacket g i x.jobTag x.rxNext ack (some p)) s fun t =>
          (∃ y, (t.gw g).tunnels = [y] ∧ y.rxNext = x.rxNext + 1) ∧ t.router = { s.router with ejected := satInc s.router.ejected } ∧
            t.emitted = .tunnel g ((s.gw g).datagram x x.txSeq (x.rxNext + 1) none) :: s.emitted ∧ Only [.gws, .router, .emitted] s t) ∧
      (∀ (seq ack : Word) (p : Packet), seq ≠ x.rxNext → Gives (.tunnelPacket g i x.jobTag seq ack (some p)) s fun t =>
        (∃ y, (t.gw g).tunnels = [y] ∧ y.rxNext = x.rxNext) ∧
          t.emitted = .tunnel g ((s.gw g).datagram x x.txSeq x.rxNext none) :: s.emitted ∧ Only [.gws, .emitted] s t) ∧
      (x.unacked ≠ [] →
        (x.stuck < 8 → Gives (.tunnelResend g i) s fun t =>
          (∃ y, (t.gw g).tunnels = [y] ∧ y.stuck = x.stuck + 1 ∧ y.unacked = x.unacked) ∧
            t.clock.uptime = max s.clock.uptime (x.since + 100000) ∧
            (∀ e ∈ x.unacked, Emission.tunnel g ((s.gw g).datagram x e.1 x.rxNext (some e.2)) ∈ t.emitted) ∧
            Only [.clock, .gws, .emitted] s t) ∧
        (8 ≤ x.stuck → s.router.transfers = [] → Gives (.tunnelResend g i) s fun t =>
          (∃ y, (t.gw g).tunnels = [y] ∧ y.failed = true ∧ y.unacked = []) ∧ t.clock.uptime = max s.clock.uptime (x.since + 100000) ∧
            Only (.clock :: .gws :: logging) s t))) ∧
    (∀ q : Qp, s.gwState g = 2 → (s.gw g).qps = [q] → q.ready = true → s.hbmCalm = true →
      (∀ d : Bytes, d.length ≤ q.mtu → Gives (.rocePacket g q.qpn q.recvPsn ⟨.sendMsg d, false⟩) s fun t =>
        (t.gw g).qps = [{ q with recvPsn := BitVec.ofNat 32 ((q.recvPsn.toNat + 1) % 2 ^ 24), received := q.received ++ [d] }] ∧
          t.emitted = .roce g ((s.gw g).roceFrame q .ack q.recvPsn.toNat []) :: s.emitted ∧ Only [.gws, .emitted] s t) ∧
      (∀ (psn : Word) (op : RoceOp), op ≠ .cnp → psn ≠ q.recvPsn →
        (Gives (.rocePacket g q.qpn psn ⟨op, false⟩) s fun t => (t.gw g).qps = [q] ∧ t.emitted = s.emitted ∧ Only [.gws] s t) ∧
        (Gives (.rocePacket g q.qpn psn ⟨op, true⟩) s fun t =>
          (t.gw g).qps = [q] ∧ t.emitted = .roce g ((s.gw g).roceFrame q .cnp 0 []) :: s.emitted ∧ Only [.gws, .emitted] s t)) ∧
      (∀ psn : Word, Gives (.rocePacket g q.qpn psn ⟨.cnp, false⟩) s fun t =>
        (t.gw g).qps = [{ q with cnps := satInc q.cnps }] ∧ Only [.gws] s t) ∧
      (∀ (a : MemAddr) (x : XferPlace), roceSpace a = true →
        (∀ d : Bytes, d.length ≤ q.mtu → (a.space.toNat = spSheet → s.job.dispatched = false) → s.xferPlace a d.length false false = .ok x →
          Gives (.rocePacket g q.qpn q.recvPsn ⟨.write a d, false⟩) s fun t =>
            (∀ k, t.byteAt k = (s.xferWrite x d).byteAt k) ∧
              t.emitted = .roce g ((s.gw g).roceFrame q .ack q.recvPsn.toNat []) :: s.emitted ∧
              (t.gw g).qps = [{ q with recvPsn := BitVec.ofNat 32 ((q.recvPsn.toNat + 1) % 2 ^ 24) }] ∧
              Only [.gws, .emitted, .mem, .poison, .hubs, .hbmStacks] s t) ∧
        (∀ (n : Nat) (parts : List Bytes), s.xferPlace a n true false = .ok x → s.xferPoison x n = none →
          parts = (if n = 0 then [[]] else chunks q.mtu n (s.xferRead x n)) →
          Gives (.rocePacket g q.qpn q.recvPsn ⟨.read a n, false⟩) s fun t =>
            t.emitted = (parts.zipIdx.map fun e =>
              Emission.roce g ((s.gw g).roceFrame q .readResponse (q.recvPsn.toNat + e.2) e.1)).reverse ++ s.emitted ∧
            (t.gw g).qps = [{ q with recvPsn := BitVec.ofNat 32 ((q.recvPsn.toNat + parts.length) % 2 ^ 24) }] ∧ Only [.gws, .emitted] s t)))
end

