-- ==== Sys2Proof/Laws/State.lean ====
section
/-! SUPPORT. What every update of one part of the state changes, field by field. -/
namespace Sys2Proof.Machine

variable (s : State)

@[simp] theorem onDev_fuses (f : Device → Device) : (s.onDev f).fuses = s.fuses := rfl
@[simp] theorem onDev_dev (f : Device → Device) : (s.onDev f).dev = f s.dev := rfl
@[simp] theorem onDev_clock (f : Device → Device) : (s.onDev f).clock = s.clock := rfl
@[simp] theorem onDev_mer (f : Device → Device) : (s.onDev f).mer = s.mer := rfl
@[simp] theorem onDev_log (f : Device → Device) : (s.onDev f).log = s.log := rfl
@[simp] theorem onDev_faults (f : Device → Device) : (s.onDev f).faults = s.faults := rfl
@[simp] theorem onDev_regs (f : Device → Device) : (s.onDev f).regs = s.regs := rfl
@[simp] theorem onDev_mboxes (f : Device → Device) : (s.onDev f).mboxes = s.mboxes := rfl
@[simp] theorem onDev_cofin (f : Device → Device) : (s.onDev f).cofin = s.cofin := rfl
@[simp] theorem onDev_job (f : Device → Device) : (s.onDev f).job = s.job := rfl
@[simp] theorem onDev_sealSt (f : Device → Device) : (s.onDev f).sealSt = s.sealSt := rfl
@[simp] theorem onDev_cores (f : Device → Device) : (s.onDev f).cores = s.cores := rfl
@[simp] theorem onDev_coreMap (f : Device → Device) : (s.onDev f).coreMap = s.coreMap := rfl
@[simp] theorem onDev_repairs (f : Device → Device) : (s.onDev f).repairs = s.repairs := rfl
@[simp] theorem onDev_hubs (f : Device → Device) : (s.onDev f).hubs = s.hubs := rfl
@[simp] theorem onDev_hbmStacks (f : Device → Device) : (s.onDev f).hbmStacks = s.hbmStacks := rfl
@[simp] theorem onDev_mem (f : Device → Device) : (s.onDev f).mem = s.mem := rfl
@[simp] theorem onDev_poison (f : Device → Device) : (s.onDev f).poison = s.poison := rfl
@[simp] theorem onDev_dir (f : Device → Device) : (s.onDev f).dir = s.dir := rfl
@[simp] theorem onDev_rowSplit (f : Device → Device) : (s.onDev f).rowSplit = s.rowSplit := rfl
@[simp] theorem onDev_links (f : Device → Device) : (s.onDev f).links = s.links := rfl
@[simp] theorem onDev_ports (f : Device → Device) : (s.onDev f).ports = s.ports := rfl
@[simp] theorem onDev_router (f : Device → Device) : (s.onDev f).router = s.router := rfl
@[simp] theorem onDev_gws (f : Device → Device) : (s.onDev f).gws = s.gws := rfl
@[simp] theorem onDev_survey (f : Device → Device) : (s.onDev f).survey = s.survey := rfl
@[simp] theorem onDev_topo (f : Device → Device) : (s.onDev f).topo = s.topo := rfl
@[simp] theorem onDev_power (f : Device → Device) : (s.onDev f).power = s.power := rfl
@[simp] theorem onDev_integ (f : Device → Device) : (s.onDev f).integ = s.integ := rfl
@[simp] theorem onDev_dump (f : Device → Device) : (s.onDev f).dump = s.dump := rfl
@[simp] theorem onDev_sec (f : Device → Device) : (s.onDev f).sec = s.sec := rfl
@[simp] theorem onDev_mgmt (f : Device → Device) : (s.onDev f).mgmt = s.mgmt := rfl
@[simp] theorem onDev_free (f : Device → Device) : (s.onDev f).free = s.free := rfl
@[simp] theorem onDev_emitted (f : Device → Device) : (s.onDev f).emitted = s.emitted := rfl
@[simp] theorem onDev_pending (f : Device → Device) : (s.onDev f).pending = s.pending := rfl

@[simp] theorem onClock_fuses (f : Clock → Clock) : (s.onClock f).fuses = s.fuses := rfl
@[simp] theorem onClock_dev (f : Clock → Clock) : (s.onClock f).dev = s.dev := rfl
@[simp] theorem onClock_clock (f : Clock → Clock) : (s.onClock f).clock = f s.clock := rfl
@[simp] theorem onClock_mer (f : Clock → Clock) : (s.onClock f).mer = s.mer := rfl
@[simp] theorem onClock_log (f : Clock → Clock) : (s.onClock f).log = s.log := rfl
@[simp] theorem onClock_faults (f : Clock → Clock) : (s.onClock f).faults = s.faults := rfl
@[simp] theorem onClock_regs (f : Clock → Clock) : (s.onClock f).regs = s.regs := rfl
@[simp] theorem onClock_mboxes (f : Clock → Clock) : (s.onClock f).mboxes = s.mboxes := rfl
@[simp] theorem onClock_cofin (f : Clock → Clock) : (s.onClock f).cofin = s.cofin := rfl
@[simp] theorem onClock_job (f : Clock → Clock) : (s.onClock f).job = s.job := rfl
@[simp] theorem onClock_sealSt (f : Clock → Clock) : (s.onClock f).sealSt = s.sealSt := rfl
@[simp] theorem onClock_cores (f : Clock → Clock) : (s.onClock f).cores = s.cores := rfl
@[simp] theorem onClock_coreMap (f : Clock → Clock) : (s.onClock f).coreMap = s.coreMap := rfl
@[simp] theorem onClock_repairs (f : Clock → Clock) : (s.onClock f).repairs = s.repairs := rfl
@[simp] theorem onClock_hubs (f : Clock → Clock) : (s.onClock f).hubs = s.hubs := rfl
@[simp] theorem onClock_hbmStacks (f : Clock → Clock) : (s.onClock f).hbmStacks = s.hbmStacks := rfl
@[simp] theorem onClock_mem (f : Clock → Clock) : (s.onClock f).mem = s.mem := rfl
@[simp] theorem onClock_poison (f : Clock → Clock) : (s.onClock f).poison = s.poison := rfl
@[simp] theorem onClock_dir (f : Clock → Clock) : (s.onClock f).dir = s.dir := rfl
@[simp] theorem onClock_rowSplit (f : Clock → Clock) : (s.onClock f).rowSplit = s.rowSplit := rfl
@[simp] theorem onClock_links (f : Clock → Clock) : (s.onClock f).links = s.links := rfl
@[simp] theorem onClock_ports (f : Clock → Clock) : (s.onClock f).ports = s.ports := rfl
@[simp] theorem onClock_router (f : Clock → Clock) : (s.onClock f).router = s.router := rfl
@[simp] theorem onClock_gws (f : Clock → Clock) : (s.onClock f).gws = s.gws := rfl
@[simp] theorem onClock_survey (f : Clock → Clock) : (s.onClock f).survey = s.survey := rfl
@[simp] theorem onClock_topo (f : Clock → Clock) : (s.onClock f).topo = s.topo := rfl
@[simp] theorem onClock_power (f : Clock → Clock) : (s.onClock f).power = s.power := rfl
@[simp] theorem onClock_integ (f : Clock → Clock) : (s.onClock f).integ = s.integ := rfl
@[simp] theorem onClock_dump (f : Clock → Clock) : (s.onClock f).dump = s.dump := rfl
@[simp] theorem onClock_sec (f : Clock → Clock) : (s.onClock f).sec = s.sec := rfl
@[simp] theorem onClock_mgmt (f : Clock → Clock) : (s.onClock f).mgmt = s.mgmt := rfl
@[simp] theorem onClock_free (f : Clock → Clock) : (s.onClock f).free = s.free := rfl
@[simp] theorem onClock_emitted (f : Clock → Clock) : (s.onClock f).emitted = s.emitted := rfl
@[simp] theorem onClock_pending (f : Clock → Clock) : (s.onClock f).pending = s.pending := rfl

@[simp] theorem onMer_fuses (f : Meridian → Meridian) : (s.onMer f).fuses = s.fuses := rfl
@[simp] theorem onMer_dev (f : Meridian → Meridian) : (s.onMer f).dev = s.dev := rfl
@[simp] theorem onMer_clock (f : Meridian → Meridian) : (s.onMer f).clock = s.clock := rfl
@[simp] theorem onMer_mer (f : Meridian → Meridian) : (s.onMer f).mer = f s.mer := rfl
@[simp] theorem onMer_log (f : Meridian → Meridian) : (s.onMer f).log = s.log := rfl
@[simp] theorem onMer_faults (f : Meridian → Meridian) : (s.onMer f).faults = s.faults := rfl
@[simp] theorem onMer_regs (f : Meridian → Meridian) : (s.onMer f).regs = s.regs := rfl
@[simp] theorem onMer_mboxes (f : Meridian → Meridian) : (s.onMer f).mboxes = s.mboxes := rfl
@[simp] theorem onMer_cofin (f : Meridian → Meridian) : (s.onMer f).cofin = s.cofin := rfl
@[simp] theorem onMer_job (f : Meridian → Meridian) : (s.onMer f).job = s.job := rfl
@[simp] theorem onMer_sealSt (f : Meridian → Meridian) : (s.onMer f).sealSt = s.sealSt := rfl
@[simp] theorem onMer_cores (f : Meridian → Meridian) : (s.onMer f).cores = s.cores := rfl
@[simp] theorem onMer_coreMap (f : Meridian → Meridian) : (s.onMer f).coreMap = s.coreMap := rfl
@[simp] theorem onMer_repairs (f : Meridian → Meridian) : (s.onMer f).repairs = s.repairs := rfl
@[simp] theorem onMer_hubs (f : Meridian → Meridian) : (s.onMer f).hubs = s.hubs := rfl
@[simp] theorem onMer_hbmStacks (f : Meridian → Meridian) : (s.onMer f).hbmStacks = s.hbmStacks := rfl
@[simp] theorem onMer_mem (f : Meridian → Meridian) : (s.onMer f).mem = s.mem := rfl
@[simp] theorem onMer_poison (f : Meridian → Meridian) : (s.onMer f).poison = s.poison := rfl
@[simp] theorem onMer_dir (f : Meridian → Meridian) : (s.onMer f).dir = s.dir := rfl
@[simp] theorem onMer_rowSplit (f : Meridian → Meridian) : (s.onMer f).rowSplit = s.rowSplit := rfl
@[simp] theorem onMer_links (f : Meridian → Meridian) : (s.onMer f).links = s.links := rfl
@[simp] theorem onMer_ports (f : Meridian → Meridian) : (s.onMer f).ports = s.ports := rfl
@[simp] theorem onMer_router (f : Meridian → Meridian) : (s.onMer f).router = s.router := rfl
@[simp] theorem onMer_gws (f : Meridian → Meridian) : (s.onMer f).gws = s.gws := rfl
@[simp] theorem onMer_survey (f : Meridian → Meridian) : (s.onMer f).survey = s.survey := rfl
@[simp] theorem onMer_topo (f : Meridian → Meridian) : (s.onMer f).topo = s.topo := rfl
@[simp] theorem onMer_power (f : Meridian → Meridian) : (s.onMer f).power = s.power := rfl
@[simp] theorem onMer_integ (f : Meridian → Meridian) : (s.onMer f).integ = s.integ := rfl
@[simp] theorem onMer_dump (f : Meridian → Meridian) : (s.onMer f).dump = s.dump := rfl
@[simp] theorem onMer_sec (f : Meridian → Meridian) : (s.onMer f).sec = s.sec := rfl
@[simp] theorem onMer_mgmt (f : Meridian → Meridian) : (s.onMer f).mgmt = s.mgmt := rfl
@[simp] theorem onMer_free (f : Meridian → Meridian) : (s.onMer f).free = s.free := rfl
@[simp] theorem onMer_emitted (f : Meridian → Meridian) : (s.onMer f).emitted = s.emitted := rfl
@[simp] theorem onMer_pending (f : Meridian → Meridian) : (s.onMer f).pending = s.pending := rfl

@[simp] theorem onLog_fuses (f : EventLog → EventLog) : (s.onLog f).fuses = s.fuses := rfl
@[simp] theorem onLog_dev (f : EventLog → EventLog) : (s.onLog f).dev = s.dev := rfl
@[simp] theorem onLog_clock (f : EventLog → EventLog) : (s.onLog f).clock = s.clock := rfl
@[simp] theorem onLog_mer (f : EventLog → EventLog) : (s.onLog f).mer = s.mer := rfl
@[simp] theorem onLog_log (f : EventLog → EventLog) : (s.onLog f).log = f s.log := rfl
@[simp] theorem onLog_faults (f : EventLog → EventLog) : (s.onLog f).faults = s.faults := rfl
@[simp] theorem onLog_regs (f : EventLog → EventLog) : (s.onLog f).regs = s.regs := rfl
@[simp] theorem onLog_mboxes (f : EventLog → EventLog) : (s.onLog f).mboxes = s.mboxes := rfl
@[simp] theorem onLog_cofin (f : EventLog → EventLog) : (s.onLog f).cofin = s.cofin := rfl
@[simp] theorem onLog_job (f : EventLog → EventLog) : (s.onLog f).job = s.job := rfl
@[simp] theorem onLog_sealSt (f : EventLog → EventLog) : (s.onLog f).sealSt = s.sealSt := rfl
@[simp] theorem onLog_cores (f : EventLog → EventLog) : (s.onLog f).cores = s.cores := rfl
@[simp] theorem onLog_coreMap (f : EventLog → EventLog) : (s.onLog f).coreMap = s.coreMap := rfl
@[simp] theorem onLog_repairs (f : EventLog → EventLog) : (s.onLog f).repairs = s.repairs := rfl
@[simp] theorem onLog_hubs (f : EventLog → EventLog) : (s.onLog f).hubs = s.hubs := rfl
@[simp] theorem onLog_hbmStacks (f : EventLog → EventLog) : (s.onLog f).hbmStacks = s.hbmStacks := rfl
@[simp] theorem onLog_mem (f : EventLog → EventLog) : (s.onLog f).mem = s.mem := rfl
@[simp] theorem onLog_poison (f : EventLog → EventLog) : (s.onLog f).poison = s.poison := rfl
@[simp] theorem onLog_dir (f : EventLog → EventLog) : (s.onLog f).dir = s.dir := rfl
@[simp] theorem onLog_rowSplit (f : EventLog → EventLog) : (s.onLog f).rowSplit = s.rowSplit := rfl
@[simp] theorem onLog_links (f : EventLog → EventLog) : (s.onLog f).links = s.links := rfl
@[simp] theorem onLog_ports (f : EventLog → EventLog) : (s.onLog f).ports = s.ports := rfl
@[simp] theorem onLog_router (f : EventLog → EventLog) : (s.onLog f).router = s.router := rfl
@[simp] theorem onLog_gws (f : EventLog → EventLog) : (s.onLog f).gws = s.gws := rfl
@[simp] theorem onLog_survey (f : EventLog → EventLog) : (s.onLog f).survey = s.survey := rfl
@[simp] theorem onLog_topo (f : EventLog → EventLog) : (s.onLog f).topo = s.topo := rfl
@[simp] theorem onLog_power (f : EventLog → EventLog) : (s.onLog f).power = s.power := rfl
@[simp] theorem onLog_integ (f : EventLog → EventLog) : (s.onLog f).integ = s.integ := rfl
@[simp] theorem onLog_dump (f : EventLog → EventLog) : (s.onLog f).dump = s.dump := rfl
@[simp] theorem onLog_sec (f : EventLog → EventLog) : (s.onLog f).sec = s.sec := rfl
@[simp] theorem onLog_mgmt (f : EventLog → EventLog) : (s.onLog f).mgmt = s.mgmt := rfl
@[simp] theorem onLog_free (f : EventLog → EventLog) : (s.onLog f).free = s.free := rfl
@[simp] theorem onLog_emitted (f : EventLog → EventLog) : (s.onLog f).emitted = s.emitted := rfl
@[simp] theorem onLog_pending (f : EventLog → EventLog) : (s.onLog f).pending = s.pending := rfl

@[simp] theorem onFaults_fuses (f : FaultWindows → FaultWindows) : (s.onFaults f).fuses = s.fuses := rfl
@[simp] theorem onFaults_dev (f : FaultWindows → FaultWindows) : (s.onFaults f).dev = s.dev := rfl
@[simp] theorem onFaults_clock (f : FaultWindows → FaultWindows) : (s.onFaults f).clock = s.clock := rfl
@[simp] theorem onFaults_mer (f : FaultWindows → FaultWindows) : (s.onFaults f).mer = s.mer := rfl
@[simp] theorem onFaults_log (f : FaultWindows → FaultWindows) : (s.onFaults f).log = s.log := rfl
@[simp] theorem onFaults_faults (f : FaultWindows → FaultWindows) : (s.onFaults f).faults = f s.faults := rfl
@[simp] theorem onFaults_regs (f : FaultWindows → FaultWindows) : (s.onFaults f).regs = s.regs := rfl
@[simp] theorem onFaults_mboxes (f : FaultWindows → FaultWindows) : (s.onFaults f).mboxes = s.mboxes := rfl
@[simp] theorem onFaults_cofin (f : FaultWindows → FaultWindows) : (s.onFaults f).cofin = s.cofin := rfl
@[simp] theorem onFaults_job (f : FaultWindows → FaultWindows) : (s.onFaults f).job = s.job := rfl
@[simp] theorem onFaults_sealSt (f : FaultWindows → FaultWindows) : (s.onFaults f).sealSt = s.sealSt := rfl
@[simp] theorem onFaults_cores (f : FaultWindows → FaultWindows) : (s.onFaults f).cores = s.cores := rfl
@[simp] theorem onFaults_coreMap (f : FaultWindows → FaultWindows) : (s.onFaults f).coreMap = s.coreMap := rfl
@[simp] theorem onFaults_repairs (f : FaultWindows → FaultWindows) : (s.onFaults f).repairs = s.repairs := rfl
@[simp] theorem onFaults_hubs (f : FaultWindows → FaultWindows) : (s.onFaults f).hubs = s.hubs := rfl
@[simp] theorem onFaults_hbmStacks (f : FaultWindows → FaultWindows) : (s.onFaults f).hbmStacks = s.hbmStacks := rfl
@[simp] theorem onFaults_mem (f : FaultWindows → FaultWindows) : (s.onFaults f).mem = s.mem := rfl
@[simp] theorem onFaults_poison (f : FaultWindows → FaultWindows) : (s.onFaults f).poison = s.poison := rfl
@[simp] theorem onFaults_dir (f : FaultWindows → FaultWindows) : (s.onFaults f).dir = s.dir := rfl
@[simp] theorem onFaults_rowSplit (f : FaultWindows → FaultWindows) : (s.onFaults f).rowSplit = s.rowSplit := rfl
@[simp] theorem onFaults_links (f : FaultWindows → FaultWindows) : (s.onFaults f).links = s.links := rfl
@[simp] theorem onFaults_ports (f : FaultWindows → FaultWindows) : (s.onFaults f).ports = s.ports := rfl
@[simp] theorem onFaults_router (f : FaultWindows → FaultWindows) : (s.onFaults f).router = s.router := rfl
@[simp] theorem onFaults_gws (f : FaultWindows → FaultWindows) : (s.onFaults f).gws = s.gws := rfl
@[simp] theorem onFaults_survey (f : FaultWindows → FaultWindows) : (s.onFaults f).survey = s.survey := rfl
@[simp] theorem onFaults_topo (f : FaultWindows → FaultWindows) : (s.onFaults f).topo = s.topo := rfl
@[simp] theorem onFaults_power (f : FaultWindows → FaultWindows) : (s.onFaults f).power = s.power := rfl
@[simp] theorem onFaults_integ (f : FaultWindows → FaultWindows) : (s.onFaults f).integ = s.integ := rfl
@[simp] theorem onFaults_dump (f : FaultWindows → FaultWindows) : (s.onFaults f).dump = s.dump := rfl
@[simp] theorem onFaults_sec (f : FaultWindows → FaultWindows) : (s.onFaults f).sec = s.sec := rfl
@[simp] theorem onFaults_mgmt (f : FaultWindows → FaultWindows) : (s.onFaults f).mgmt = s.mgmt := rfl
@[simp] theorem onFaults_free (f : FaultWindows → FaultWindows) : (s.onFaults f).free = s.free := rfl
@[simp] theorem onFaults_emitted (f : FaultWindows → FaultWindows) : (s.onFaults f).emitted = s.emitted := rfl
@[simp] theorem onFaults_pending (f : FaultWindows → FaultWindows) : (s.onFaults f).pending = s.pending := rfl

@[simp] theorem onRegs_fuses (f : HostRegs → HostRegs) : (s.onRegs f).fuses = s.fuses := rfl
@[simp] theorem onRegs_dev (f : HostRegs → HostRegs) : (s.onRegs f).dev = s.dev := rfl
@[simp] theorem onRegs_clock (f : HostRegs → HostRegs) : (s.onRegs f).clock = s.clock := rfl
@[simp] theorem onRegs_mer (f : HostRegs → HostRegs) : (s.onRegs f).mer = s.mer := rfl
@[simp] theorem onRegs_log (f : HostRegs → HostRegs) : (s.onRegs f).log = s.log := rfl
@[simp] theorem onRegs_faults (f : HostRegs → HostRegs) : (s.onRegs f).faults = s.faults := rfl
@[simp] theorem onRegs_regs (f : HostRegs → HostRegs) : (s.onRegs f).regs = f s.regs := rfl
@[simp] theorem onRegs_mboxes (f : HostRegs → HostRegs) : (s.onRegs f).mboxes = s.mboxes := rfl
@[simp] theorem onRegs_cofin (f : HostRegs → HostRegs) : (s.onRegs f).cofin = s.cofin := rfl
@[simp] theorem onRegs_job (f : HostRegs → HostRegs) : (s.onRegs f).job = s.job := rfl
@[simp] theorem onRegs_sealSt (f : HostRegs → HostRegs) : (s.onRegs f).sealSt = s.sealSt := rfl
@[simp] theorem onRegs_cores (f : HostRegs → HostRegs) : (s.onRegs f).cores = s.cores := rfl
@[simp] theorem onRegs_coreMap (f : HostRegs → HostRegs) : (s.onRegs f).coreMap = s.coreMap := rfl
@[simp] theorem onRegs_repairs (f : HostRegs → HostRegs) : (s.onRegs f).repairs = s.repairs := rfl
@[simp] theorem onRegs_hubs (f : HostRegs → HostRegs) : (s.onRegs f).hubs = s.hubs := rfl
@[simp] theorem onRegs_hbmStacks (f : HostRegs → HostRegs) : (s.onRegs f).hbmStacks = s.hbmStacks := rfl
@[simp] theorem onRegs_mem (f : HostRegs → HostRegs) : (s.onRegs f).mem = s.mem := rfl
@[simp] theorem onRegs_poison (f : HostRegs → HostRegs) : (s.onRegs f).poison = s.poison := rfl
@[simp] theorem onRegs_dir (f : HostRegs → HostRegs) : (s.onRegs f).dir = s.dir := rfl
@[simp] theorem onRegs_rowSplit (f : HostRegs → HostRegs) : (s.onRegs f).rowSplit = s.rowSplit := rfl
@[simp] theorem onRegs_links (f : HostRegs → HostRegs) : (s.onRegs f).links = s.links := rfl
@[simp] theorem onRegs_ports (f : HostRegs → HostRegs) : (s.onRegs f).ports = s.ports := rfl
@[simp] theorem onRegs_router (f : HostRegs → HostRegs) : (s.onRegs f).router = s.router := rfl
@[simp] theorem onRegs_gws (f : HostRegs → HostRegs) : (s.onRegs f).gws = s.gws := rfl
@[simp] theorem onRegs_survey (f : HostRegs → HostRegs) : (s.onRegs f).survey = s.survey := rfl
@[simp] theorem onRegs_topo (f : HostRegs → HostRegs) : (s.onRegs f).topo = s.topo := rfl
@[simp] theorem onRegs_power (f : HostRegs → HostRegs) : (s.onRegs f).power = s.power := rfl
@[simp] theorem onRegs_integ (f : HostRegs → HostRegs) : (s.onRegs f).integ = s.integ := rfl
@[simp] theorem onRegs_dump (f : HostRegs → HostRegs) : (s.onRegs f).dump = s.dump := rfl
@[simp] theorem onRegs_sec (f : HostRegs → HostRegs) : (s.onRegs f).sec = s.sec := rfl
@[simp] theorem onRegs_mgmt (f : HostRegs → HostRegs) : (s.onRegs f).mgmt = s.mgmt := rfl
@[simp] theorem onRegs_free (f : HostRegs → HostRegs) : (s.onRegs f).free = s.free := rfl
@[simp] theorem onRegs_emitted (f : HostRegs → HostRegs) : (s.onRegs f).emitted = s.emitted := rfl
@[simp] theorem onRegs_pending (f : HostRegs → HostRegs) : (s.onRegs f).pending = s.pending := rfl

@[simp] theorem onMboxes_fuses (f : Table Mailbox → Table Mailbox) : (s.onMboxes f).fuses = s.fuses := rfl
@[simp] theorem onMboxes_dev (f : Table Mailbox → Table Mailbox) : (s.onMboxes f).dev = s.dev := rfl
@[simp] theorem onMboxes_clock (f : Table Mailbox → Table Mailbox) : (s.onMboxes f).clock = s.clock := rfl
@[simp] theorem onMboxes_mer (f : Table Mailbox → Table Mailbox) : (s.onMboxes f).mer = s.mer := rfl
@[simp] theorem onMboxes_log (f : Table Mailbox → Table Mailbox) : (s.onMboxes f).log = s.log := rfl
@[simp] theorem onMboxes_faults (f : Table Mailbox → Table Mailbox) : (s.onMboxes f).faults = s.faults := rfl
@[simp] theorem onMboxes_regs (f : Table Mailbox → Table Mailbox) : (s.onMboxes f).regs = s.regs := rfl
@[simp] theorem onMboxes_mboxes (f : Table Mailbox → Table Mailbox) : (s.onMboxes f).mboxes = f s.mboxes := rfl
@[simp] theorem onMboxes_cofin (f : Table Mailbox → Table Mailbox) : (s.onMboxes f).cofin = s.cofin := rfl
@[simp] theorem onMboxes_job (f : Table Mailbox → Table Mailbox) : (s.onMboxes f).job = s.job := rfl
@[simp] theorem onMboxes_sealSt (f : Table Mailbox → Table Mailbox) : (s.onMboxes f).sealSt = s.sealSt := rfl
@[simp] theorem onMboxes_cores (f : Table Mailbox → Table Mailbox) : (s.onMboxes f).cores = s.cores := rfl
@[simp] theorem onMboxes_coreMap (f : Table Mailbox → Table Mailbox) : (s.onMboxes f).coreMap = s.coreMap := rfl
@[simp] theorem onMboxes_repairs (f : Table Mailbox → Table Mailbox) : (s.onMboxes f).repairs = s.repairs := rfl
@[simp] theorem onMboxes_hubs (f : Table Mailbox → Table Mailbox) : (s.onMboxes f).hubs = s.hubs := rfl
@[simp] theorem onMboxes_hbmStacks (f : Table Mailbox → Table Mailbox) : (s.onMboxes f).hbmStacks = s.hbmStacks := rfl
@[simp] theorem onMboxes_mem (f : Table Mailbox → Table Mailbox) : (s.onMboxes f).mem = s.mem := rfl
@[simp] theorem onMboxes_poison (f : Table Mailbox → Table Mailbox) : (s.onMboxes f).poison = s.poison := rfl
@[simp] theorem onMboxes_dir (f : Table Mailbox → Table Mailbox) : (s.onMboxes f).dir = s.dir := rfl
@[simp] theorem onMboxes_rowSplit (f : Table Mailbox → Table Mailbox) : (s.onMboxes f).rowSplit = s.rowSplit := rfl
@[simp] theorem onMboxes_links (f : Table Mailbox → Table Mailbox) : (s.onMboxes f).links = s.links := rfl
@[simp] theorem onMboxes_ports (f : Table Mailbox → Table Mailbox) : (s.onMboxes f).ports = s.ports := rfl
@[simp] theorem onMboxes_router (f : Table Mailbox → Table Mailbox) : (s.onMboxes f).router = s.router := rfl
@[simp] theorem onMboxes_gws (f : Table Mailbox → Table Mailbox) : (s.onMboxes f).gws = s.gws := rfl
@[simp] theorem onMboxes_survey (f : Table Mailbox → Table Mailbox) : (s.onMboxes f).survey = s.survey := rfl
@[simp] theorem onMboxes_topo (f : Table Mailbox → Table Mailbox) : (s.onMboxes f).topo = s.topo := rfl
@[simp] theorem onMboxes_power (f : Table Mailbox → Table Mailbox) : (s.onMboxes f).power = s.power := rfl
@[simp] theorem onMboxes_integ (f : Table Mailbox → Table Mailbox) : (s.onMboxes f).integ = s.integ := rfl
@[simp] theorem onMboxes_dump (f : Table Mailbox → Table Mailbox) : (s.onMboxes f).dump = s.dump := rfl
@[simp] theorem onMboxes_sec (f : Table Mailbox → Table Mailbox) : (s.onMboxes f).sec = s.sec := rfl
@[simp] theorem onMboxes_mgmt (f : Table Mailbox → Table Mailbox) : (s.onMboxes f).mgmt = s.mgmt := rfl
@[simp] theorem onMboxes_free (f : Table Mailbox → Table Mailbox) : (s.onMboxes f).free = s.free := rfl
@[simp] theorem onMboxes_emitted (f : Table Mailbox → Table Mailbox) : (s.onMboxes f).emitted = s.emitted := rfl
@[simp] theorem onMboxes_pending (f : Table Mailbox → Table Mailbox) : (s.onMboxes f).pending = s.pending := rfl

@[simp] theorem onCofin_fuses (f : Cofin → Cofin) : (s.onCofin f).fuses = s.fuses := rfl
@[simp] theorem onCofin_dev (f : Cofin → Cofin) : (s.onCofin f).dev = s.dev := rfl
@[simp] theorem onCofin_clock (f : Cofin → Cofin) : (s.onCofin f).clock = s.clock := rfl
@[simp] theorem onCofin_mer (f : Cofin → Cofin) : (s.onCofin f).mer = s.mer := rfl
@[simp] theorem onCofin_log (f : Cofin → Cofin) : (s.onCofin f).log = s.log := rfl
@[simp] theorem onCofin_faults (f : Cofin → Cofin) : (s.onCofin f).faults = s.faults := rfl
@[simp] theorem onCofin_regs (f : Cofin → Cofin) : (s.onCofin f).regs = s.regs := rfl
@[simp] theorem onCofin_mboxes (f : Cofin → Cofin) : (s.onCofin f).mboxes = s.mboxes := rfl
@[simp] theorem onCofin_cofin (f : Cofin → Cofin) : (s.onCofin f).cofin = f s.cofin := rfl
@[simp] theorem onCofin_job (f : Cofin → Cofin) : (s.onCofin f).job = s.job := rfl
@[simp] theorem onCofin_sealSt (f : Cofin → Cofin) : (s.onCofin f).sealSt = s.sealSt := rfl
@[simp] theorem onCofin_cores (f : Cofin → Cofin) : (s.onCofin f).cores = s.cores := rfl
@[simp] theorem onCofin_coreMap (f : Cofin → Cofin) : (s.onCofin f).coreMap = s.coreMap := rfl
@[simp] theorem onCofin_repairs (f : Cofin → Cofin) : (s.onCofin f).repairs = s.repairs := rfl
@[simp] theorem onCofin_hubs (f : Cofin → Cofin) : (s.onCofin f).hubs = s.hubs := rfl
@[simp] theorem onCofin_hbmStacks (f : Cofin → Cofin) : (s.onCofin f).hbmStacks = s.hbmStacks := rfl
@[simp] theorem onCofin_mem (f : Cofin → Cofin) : (s.onCofin f).mem = s.mem := rfl
@[simp] theorem onCofin_poison (f : Cofin → Cofin) : (s.onCofin f).poison = s.poison := rfl
@[simp] theorem onCofin_dir (f : Cofin → Cofin) : (s.onCofin f).dir = s.dir := rfl
@[simp] theorem onCofin_rowSplit (f : Cofin → Cofin) : (s.onCofin f).rowSplit = s.rowSplit := rfl
@[simp] theorem onCofin_links (f : Cofin → Cofin) : (s.onCofin f).links = s.links := rfl
@[simp] theorem onCofin_ports (f : Cofin → Cofin) : (s.onCofin f).ports = s.ports := rfl
@[simp] theorem onCofin_router (f : Cofin → Cofin) : (s.onCofin f).router = s.router := rfl
@[simp] theorem onCofin_gws (f : Cofin → Cofin) : (s.onCofin f).gws = s.gws := rfl
@[simp] theorem onCofin_survey (f : Cofin → Cofin) : (s.onCofin f).survey = s.survey := rfl
@[simp] theorem onCofin_topo (f : Cofin → Cofin) : (s.onCofin f).topo = s.topo := rfl
@[simp] theorem onCofin_power (f : Cofin → Cofin) : (s.onCofin f).power = s.power := rfl
@[simp] theorem onCofin_integ (f : Cofin → Cofin) : (s.onCofin f).integ = s.integ := rfl
@[simp] theorem onCofin_dump (f : Cofin → Cofin) : (s.onCofin f).dump = s.dump := rfl
@[simp] theorem onCofin_sec (f : Cofin → Cofin) : (s.onCofin f).sec = s.sec := rfl
@[simp] theorem onCofin_mgmt (f : Cofin → Cofin) : (s.onCofin f).mgmt = s.mgmt := rfl
@[simp] theorem onCofin_free (f : Cofin → Cofin) : (s.onCofin f).free = s.free := rfl
@[simp] theorem onCofin_emitted (f : Cofin → Cofin) : (s.onCofin f).emitted = s.emitted := rfl
@[simp] theorem onCofin_pending (f : Cofin → Cofin) : (s.onCofin f).pending = s.pending := rfl

@[simp] theorem onJob_fuses (f : Job → Job) : (s.onJob f).fuses = s.fuses := rfl
@[simp] theorem onJob_dev (f : Job → Job) : (s.onJob f).dev = s.dev := rfl
@[simp] theorem onJob_clock (f : Job → Job) : (s.onJob f).clock = s.clock := rfl
@[simp] theorem onJob_mer (f : Job → Job) : (s.onJob f).mer = s.mer := rfl
@[simp] theorem onJob_log (f : Job → Job) : (s.onJob f).log = s.log := rfl
@[simp] theorem onJob_faults (f : Job → Job) : (s.onJob f).faults = s.faults := rfl
@[simp] theorem onJob_regs (f : Job → Job) : (s.onJob f).regs = s.regs := rfl
@[simp] theorem onJob_mboxes (f : Job → Job) : (s.onJob f).mboxes = s.mboxes := rfl
@[simp] theorem onJob_cofin (f : Job → Job) : (s.onJob f).cofin = s.cofin := rfl
@[simp] theorem onJob_job (f : Job → Job) : (s.onJob f).job = f s.job := rfl
@[simp] theorem onJob_sealSt (f : Job → Job) : (s.onJob f).sealSt = s.sealSt := rfl
@[simp] theorem onJob_cores (f : Job → Job) : (s.onJob f).cores = s.cores := rfl
@[simp] theorem onJob_coreMap (f : Job → Job) : (s.onJob f).coreMap = s.coreMap := rfl
@[simp] theorem onJob_repairs (f : Job → Job) : (s.onJob f).repairs = s.repairs := rfl
@[simp] theorem onJob_hubs (f : Job → Job) : (s.onJob f).hubs = s.hubs := rfl
@[simp] theorem onJob_hbmStacks (f : Job → Job) : (s.onJob f).hbmStacks = s.hbmStacks := rfl
@[simp] theorem onJob_mem (f : Job → Job) : (s.onJob f).mem = s.mem := rfl
@[simp] theorem onJob_poison (f : Job → Job) : (s.onJob f).poison = s.poison := rfl
@[simp] theorem onJob_dir (f : Job → Job) : (s.onJob f).dir = s.dir := rfl
@[simp] theorem onJob_rowSplit (f : Job → Job) : (s.onJob f).rowSplit = s.rowSplit := rfl
@[simp] theorem onJob_links (f : Job → Job) : (s.onJob f).links = s.links := rfl
@[simp] theorem onJob_ports (f : Job → Job) : (s.onJob f).ports = s.ports := rfl
@[simp] theorem onJob_router (f : Job → Job) : (s.onJob f).router = s.router := rfl
@[simp] theorem onJob_gws (f : Job → Job) : (s.onJob f).gws = s.gws := rfl
@[simp] theorem onJob_survey (f : Job → Job) : (s.onJob f).survey = s.survey := rfl
@[simp] theorem onJob_topo (f : Job → Job) : (s.onJob f).topo = s.topo := rfl
@[simp] theorem onJob_power (f : Job → Job) : (s.onJob f).power = s.power := rfl
@[simp] theorem onJob_integ (f : Job → Job) : (s.onJob f).integ = s.integ := rfl
@[simp] theorem onJob_dump (f : Job → Job) : (s.onJob f).dump = s.dump := rfl
@[simp] theorem onJob_sec (f : Job → Job) : (s.onJob f).sec = s.sec := rfl
@[simp] theorem onJob_mgmt (f : Job → Job) : (s.onJob f).mgmt = s.mgmt := rfl
@[simp] theorem onJob_free (f : Job → Job) : (s.onJob f).free = s.free := rfl
@[simp] theorem onJob_emitted (f : Job → Job) : (s.onJob f).emitted = s.emitted := rfl
@[simp] theorem onJob_pending (f : Job → Job) : (s.onJob f).pending = s.pending := rfl

@[simp] theorem onSealSt_fuses (f : Seal → Seal) : (s.onSealSt f).fuses = s.fuses := rfl
@[simp] theorem onSealSt_dev (f : Seal → Seal) : (s.onSealSt f).dev = s.dev := rfl
@[simp] theorem onSealSt_clock (f : Seal → Seal) : (s.onSealSt f).clock = s.clock := rfl
@[simp] theorem onSealSt_mer (f : Seal → Seal) : (s.onSealSt f).mer = s.mer := rfl
@[simp] theorem onSealSt_log (f : Seal → Seal) : (s.onSealSt f).log = s.log := rfl
@[simp] theorem onSealSt_faults (f : Seal → Seal) : (s.onSealSt f).faults = s.faults := rfl
@[simp] theorem onSealSt_regs (f : Seal → Seal) : (s.onSealSt f).regs = s.regs := rfl
@[simp] theorem onSealSt_mboxes (f : Seal → Seal) : (s.onSealSt f).mboxes = s.mboxes := rfl
@[simp] theorem onSealSt_cofin (f : Seal → Seal) : (s.onSealSt f).cofin = s.cofin := rfl
@[simp] theorem onSealSt_job (f : Seal → Seal) : (s.onSealSt f).job = s.job := rfl
@[simp] theorem onSealSt_sealSt (f : Seal → Seal) : (s.onSealSt f).sealSt = f s.sealSt := rfl
@[simp] theorem onSealSt_cores (f : Seal → Seal) : (s.onSealSt f).cores = s.cores := rfl
@[simp] theorem onSealSt_coreMap (f : Seal → Seal) : (s.onSealSt f).coreMap = s.coreMap := rfl
@[simp] theorem onSealSt_repairs (f : Seal → Seal) : (s.onSealSt f).repairs = s.repairs := rfl
@[simp] theorem onSealSt_hubs (f : Seal → Seal) : (s.onSealSt f).hubs = s.hubs := rfl
@[simp] theorem onSealSt_hbmStacks (f : Seal → Seal) : (s.onSealSt f).hbmStacks = s.hbmStacks := rfl
@[simp] theorem onSealSt_mem (f : Seal → Seal) : (s.onSealSt f).mem = s.mem := rfl
@[simp] theorem onSealSt_poison (f : Seal → Seal) : (s.onSealSt f).poison = s.poison := rfl
@[simp] theorem onSealSt_dir (f : Seal → Seal) : (s.onSealSt f).dir = s.dir := rfl
@[simp] theorem onSealSt_rowSplit (f : Seal → Seal) : (s.onSealSt f).rowSplit = s.rowSplit := rfl
@[simp] theorem onSealSt_links (f : Seal → Seal) : (s.onSealSt f).links = s.links := rfl
@[simp] theorem onSealSt_ports (f : Seal → Seal) : (s.onSealSt f).ports = s.ports := rfl
@[simp] theorem onSealSt_router (f : Seal → Seal) : (s.onSealSt f).router = s.router := rfl
@[simp] theorem onSealSt_gws (f : Seal → Seal) : (s.onSealSt f).gws = s.gws := rfl
@[simp] theorem onSealSt_survey (f : Seal → Seal) : (s.onSealSt f).survey = s.survey := rfl
@[simp] theorem onSealSt_topo (f : Seal → Seal) : (s.onSealSt f).topo = s.topo := rfl
@[simp] theorem onSealSt_power (f : Seal → Seal) : (s.onSealSt f).power = s.power := rfl
@[simp] theorem onSealSt_integ (f : Seal → Seal) : (s.onSealSt f).integ = s.integ := rfl
@[simp] theorem onSealSt_dump (f : Seal → Seal) : (s.onSealSt f).dump = s.dump := rfl
@[simp] theorem onSealSt_sec (f : Seal → Seal) : (s.onSealSt f).sec = s.sec := rfl
@[simp] theorem onSealSt_mgmt (f : Seal → Seal) : (s.onSealSt f).mgmt = s.mgmt := rfl
@[simp] theorem onSealSt_free (f : Seal → Seal) : (s.onSealSt f).free = s.free := rfl
@[simp] theorem onSealSt_emitted (f : Seal → Seal) : (s.onSealSt f).emitted = s.emitted := rfl
@[simp] theorem onSealSt_pending (f : Seal → Seal) : (s.onSealSt f).pending = s.pending := rfl

@[simp] theorem onCores_fuses (f : Table Core → Table Core) : (s.onCores f).fuses = s.fuses := rfl
@[simp] theorem onCores_dev (f : Table Core → Table Core) : (s.onCores f).dev = s.dev := rfl
@[simp] theorem onCores_clock (f : Table Core → Table Core) : (s.onCores f).clock = s.clock := rfl
@[simp] theorem onCores_mer (f : Table Core → Table Core) : (s.onCores f).mer = s.mer := rfl
@[simp] theorem onCores_log (f : Table Core → Table Core) : (s.onCores f).log = s.log := rfl
@[simp] theorem onCores_faults (f : Table Core → Table Core) : (s.onCores f).faults = s.faults := rfl
@[simp] theorem onCores_regs (f : Table Core → Table Core) : (s.onCores f).regs = s.regs := rfl
@[simp] theorem onCores_mboxes (f : Table Core → Table Core) : (s.onCores f).mboxes = s.mboxes := rfl
@[simp] theorem onCores_cofin (f : Table Core → Table Core) : (s.onCores f).cofin = s.cofin := rfl
@[simp] theorem onCores_job (f : Table Core → Table Core) : (s.onCores f).job = s.job := rfl
@[simp] theorem onCores_sealSt (f : Table Core → Table Core) : (s.onCores f).sealSt = s.sealSt := rfl
@[simp] theorem onCores_cores (f : Table Core → Table Core) : (s.onCores f).cores = f s.cores := rfl
@[simp] theorem onCores_coreMap (f : Table Core → Table Core) : (s.onCores f).coreMap = s.coreMap := rfl
@[simp] theorem onCores_repairs (f : Table Core → Table Core) : (s.onCores f).repairs = s.repairs := rfl
@[simp] theorem onCores_hubs (f : Table Core → Table Core) : (s.onCores f).hubs = s.hubs := rfl
@[simp] theorem onCores_hbmStacks (f : Table Core → Table Core) : (s.onCores f).hbmStacks = s.hbmStacks := rfl
@[simp] theorem onCores_mem (f : Table Core → Table Core) : (s.onCores f).mem = s.mem := rfl
@[simp] theorem onCores_poison (f : Table Core → Table Core) : (s.onCores f).poison = s.poison := rfl
@[simp] theorem onCores_dir (f : Table Core → Table Core) : (s.onCores f).dir = s.dir := rfl
@[simp] theorem onCores_rowSplit (f : Table Core → Table Core) : (s.onCores f).rowSplit = s.rowSplit := rfl
@[simp] theorem onCores_links (f : Table Core → Table Core) : (s.onCores f).links = s.links := rfl
@[simp] theorem onCores_ports (f : Table Core → Table Core) : (s.onCores f).ports = s.ports := rfl
@[simp] theorem onCores_router (f : Table Core → Table Core) : (s.onCores f).router = s.router := rfl
@[simp] theorem onCores_gws (f : Table Core → Table Core) : (s.onCores f).gws = s.gws := rfl
@[simp] theorem onCores_survey (f : Table Core → Table Core) : (s.onCores f).survey = s.survey := rfl
@[simp] theorem onCores_topo (f : Table Core → Table Core) : (s.onCores f).topo = s.topo := rfl
@[simp] theorem onCores_power (f : Table Core → Table Core) : (s.onCores f).power = s.power := rfl
@[simp] theorem onCores_integ (f : Table Core → Table Core) : (s.onCores f).integ = s.integ := rfl
@[simp] theorem onCores_dump (f : Table Core → Table Core) : (s.onCores f).dump = s.dump := rfl
@[simp] theorem onCores_sec (f : Table Core → Table Core) : (s.onCores f).sec = s.sec := rfl
@[simp] theorem onCores_mgmt (f : Table Core → Table Core) : (s.onCores f).mgmt = s.mgmt := rfl
@[simp] theorem onCores_free (f : Table Core → Table Core) : (s.onCores f).free = s.free := rfl
@[simp] theorem onCores_emitted (f : Table Core → Table Core) : (s.onCores f).emitted = s.emitted := rfl
@[simp] theorem onCores_pending (f : Table Core → Table Core) : (s.onCores f).pending = s.pending := rfl

@[simp] theorem onCoreMap_fuses (f : List Nat → List Nat) : (s.onCoreMap f).fuses = s.fuses := rfl
@[simp] theorem onCoreMap_dev (f : List Nat → List Nat) : (s.onCoreMap f).dev = s.dev := rfl
@[simp] theorem onCoreMap_clock (f : List Nat → List Nat) : (s.onCoreMap f).clock = s.clock := rfl
@[simp] theorem onCoreMap_mer (f : List Nat → List Nat) : (s.onCoreMap f).mer = s.mer := rfl
@[simp] theorem onCoreMap_log (f : List Nat → List Nat) : (s.onCoreMap f).log = s.log := rfl
@[simp] theorem onCoreMap_faults (f : List Nat → List Nat) : (s.onCoreMap f).faults = s.faults := rfl
@[simp] theorem onCoreMap_regs (f : List Nat → List Nat) : (s.onCoreMap f).regs = s.regs := rfl
@[simp] theorem onCoreMap_mboxes (f : List Nat → List Nat) : (s.onCoreMap f).mboxes = s.mboxes := rfl
@[simp] theorem onCoreMap_cofin (f : List Nat → List Nat) : (s.onCoreMap f).cofin = s.cofin := rfl
@[simp] theorem onCoreMap_job (f : List Nat → List Nat) : (s.onCoreMap f).job = s.job := rfl
@[simp] theorem onCoreMap_sealSt (f : List Nat → List Nat) : (s.onCoreMap f).sealSt = s.sealSt := rfl
@[simp] theorem onCoreMap_cores (f : List Nat → List Nat) : (s.onCoreMap f).cores = s.cores := rfl
@[simp] theorem onCoreMap_coreMap (f : List Nat → List Nat) : (s.onCoreMap f).coreMap = f s.coreMap := rfl
@[simp] theorem onCoreMap_repairs (f : List Nat → List Nat) : (s.onCoreMap f).repairs = s.repairs := rfl
@[simp] theorem onCoreMap_hubs (f : List Nat → List Nat) : (s.onCoreMap f).hubs = s.hubs := rfl
@[simp] theorem onCoreMap_hbmStacks (f : List Nat → List Nat) : (s.onCoreMap f).hbmStacks = s.hbmStacks := rfl
@[simp] theorem onCoreMap_mem (f : List Nat → List Nat) : (s.onCoreMap f).mem = s.mem := rfl
@[simp] theorem onCoreMap_poison (f : List Nat → List Nat) : (s.onCoreMap f).poison = s.poison := rfl
@[simp] theorem onCoreMap_dir (f : List Nat → List Nat) : (s.onCoreMap f).dir = s.dir := rfl
@[simp] theorem onCoreMap_rowSplit (f : List Nat → List Nat) : (s.onCoreMap f).rowSplit = s.rowSplit := rfl
@[simp] theorem onCoreMap_links (f : List Nat → List Nat) : (s.onCoreMap f).links = s.links := rfl
@[simp] theorem onCoreMap_ports (f : List Nat → List Nat) : (s.onCoreMap f).ports = s.ports := rfl
@[simp] theorem onCoreMap_router (f : List Nat → List Nat) : (s.onCoreMap f).router = s.router := rfl
@[simp] theorem onCoreMap_gws (f : List Nat → List Nat) : (s.onCoreMap f).gws = s.gws := rfl
@[simp] theorem onCoreMap_survey (f : List Nat → List Nat) : (s.onCoreMap f).survey = s.survey := rfl
@[simp] theorem onCoreMap_topo (f : List Nat → List Nat) : (s.onCoreMap f).topo = s.topo := rfl
@[simp] theorem onCoreMap_power (f : List Nat → List Nat) : (s.onCoreMap f).power = s.power := rfl
@[simp] theorem onCoreMap_integ (f : List Nat → List Nat) : (s.onCoreMap f).integ = s.integ := rfl
@[simp] theorem onCoreMap_dump (f : List Nat → List Nat) : (s.onCoreMap f).dump = s.dump := rfl
@[simp] theorem onCoreMap_sec (f : List Nat → List Nat) : (s.onCoreMap f).sec = s.sec := rfl
@[simp] theorem onCoreMap_mgmt (f : List Nat → List Nat) : (s.onCoreMap f).mgmt = s.mgmt := rfl
@[simp] theorem onCoreMap_free (f : List Nat → List Nat) : (s.onCoreMap f).free = s.free := rfl
@[simp] theorem onCoreMap_emitted (f : List Nat → List Nat) : (s.onCoreMap f).emitted = s.emitted := rfl
@[simp] theorem onCoreMap_pending (f : List Nat → List Nat) : (s.onCoreMap f).pending = s.pending := rfl

@[simp] theorem onRepairs_fuses (f : Table (BitVec 16) → Table (BitVec 16)) : (s.onRepairs f).fuses = s.fuses := rfl
@[simp] theorem onRepairs_dev (f : Table (BitVec 16) → Table (BitVec 16)) : (s.onRepairs f).dev = s.dev := rfl
@[simp] theorem onRepairs_clock (f : Table (BitVec 16) → Table (BitVec 16)) : (s.onRepairs f).clock = s.clock := rfl
@[simp] theorem onRepairs_mer (f : Table (BitVec 16) → Table (BitVec 16)) : (s.onRepairs f).mer = s.mer := rfl
@[simp] theorem onRepairs_log (f : Table (BitVec 16) → Table (BitVec 16)) : (s.onRepairs f).log = s.log := rfl
@[simp] theorem onRepairs_faults (f : Table (BitVec 16) → Table (BitVec 16)) : (s.onRepairs f).faults = s.faults := rfl
@[simp] theorem onRepairs_regs (f : Table (BitVec 16) → Table (BitVec 16)) : (s.onRepairs f).regs = s.regs := rfl
@[simp] theorem onRepairs_mboxes (f : Table (BitVec 16) → Table (BitVec 16)) : (s.onRepairs f).mboxes = s.mboxes := rfl
@[simp] theorem onRepairs_cofin (f : Table (BitVec 16) → Table (BitVec 16)) : (s.onRepairs f).cofin = s.cofin := rfl
@[simp] theorem onRepairs_job (f : Table (BitVec 16) → Table (BitVec 16)) : (s.onRepairs f).job = s.job := rfl
@[simp] theorem onRepairs_sealSt (f : Table (BitVec 16) → Table (BitVec 16)) : (s.onRepairs f).sealSt = s.sealSt := rfl
@[simp] theorem onRepairs_cores (f : Table (BitVec 16) → Table (BitVec 16)) : (s.onRepairs f).cores = s.cores := rfl
@[simp] theorem onRepairs_coreMap (f : Table (BitVec 16) → Table (BitVec 16)) : (s.onRepairs f).coreMap = s.coreMap := rfl
@[simp] theorem onRepairs_repairs (f : Table (BitVec 16) → Table (BitVec 16)) : (s.onRepairs f).repairs = f s.repairs := rfl
@[simp] theorem onRepairs_hubs (f : Table (BitVec 16) → Table (BitVec 16)) : (s.onRepairs f).hubs = s.hubs := rfl
@[simp] theorem onRepairs_hbmStacks (f : Table (BitVec 16) → Table (BitVec 16)) : (s.onRepairs f).hbmStacks = s.hbmStacks := rfl
@[simp] theorem onRepairs_mem (f : Table (BitVec 16) → Table (BitVec 16)) : (s.onRepairs f).mem = s.mem := rfl
@[simp] theorem onRepairs_poison (f : Table (BitVec 16) → Table (BitVec 16)) : (s.onRepairs f).poison = s.poison := rfl
@[simp] theorem onRepairs_dir (f : Table (BitVec 16) → Table (BitVec 16)) : (s.onRepairs f).dir = s.dir := rfl
@[simp] theorem onRepairs_rowSplit (f : Table (BitVec 16) → Table (BitVec 16)) : (s.onRepairs f).rowSplit = s.rowSplit := rfl
@[simp] theorem onRepairs_links (f : Table (BitVec 16) → Table (BitVec 16)) : (s.onRepairs f).links = s.links := rfl
@[simp] theorem onRepairs_ports (f : Table (BitVec 16) → Table (BitVec 16)) : (s.onRepairs f).ports = s.ports := rfl
@[simp] theorem onRepairs_router (f : Table (BitVec 16) → Table (BitVec 16)) : (s.onRepairs f).router = s.router := rfl
@[simp] theorem onRepairs_gws (f : Table (BitVec 16) → Table (BitVec 16)) : (s.onRepairs f).gws = s.gws := rfl
@[simp] theorem onRepairs_survey (f : Table (BitVec 16) → Table (BitVec 16)) : (s.onRepairs f).survey = s.survey := rfl
@[simp] theorem onRepairs_topo (f : Table (BitVec 16) → Table (BitVec 16)) : (s.onRepairs f).topo = s.topo := rfl
@[simp] theorem onRepairs_power (f : Table (BitVec 16) → Table (BitVec 16)) : (s.onRepairs f).power = s.power := rfl
@[simp] theorem onRepairs_integ (f : Table (BitVec 16) → Table (BitVec 16)) : (s.onRepairs f).integ = s.integ := rfl
@[simp] theorem onRepairs_dump (f : Table (BitVec 16) → Table (BitVec 16)) : (s.onRepairs f).dump = s.dump := rfl
@[simp] theorem onRepairs_sec (f : Table (BitVec 16) → Table (BitVec 16)) : (s.onRepairs f).sec = s.sec := rfl
@[simp] theorem onRepairs_mgmt (f : Table (BitVec 16) → Table (BitVec 16)) : (s.onRepairs f).mgmt = s.mgmt := rfl
@[simp] theorem onRepairs_free (f : Table (BitVec 16) → Table (BitVec 16)) : (s.onRepairs f).free = s.free := rfl
@[simp] theorem onRepairs_emitted (f : Table (BitVec 16) → Table (BitVec 16)) : (s.onRepairs f).emitted = s.emitted := rfl
@[simp] theorem onRepairs_pending (f : Table (BitVec 16) → Table (BitVec 16)) : (s.onRepairs f).pending = s.pending := rfl

@[simp] theorem onHubs_fuses (f : Table Hub → Table Hub) : (s.onHubs f).fuses = s.fuses := rfl
@[simp] theorem onHubs_dev (f : Table Hub → Table Hub) : (s.onHubs f).dev = s.dev := rfl
@[simp] theorem onHubs_clock (f : Table Hub → Table Hub) : (s.onHubs f).clock = s.clock := rfl
@[simp] theorem onHubs_mer (f : Table Hub → Table Hub) : (s.onHubs f).mer = s.mer := rfl
@[simp] theorem onHubs_log (f : Table Hub → Table Hub) : (s.onHubs f).log = s.log := rfl
@[simp] theorem onHubs_faults (f : Table Hub → Table Hub) : (s.onHubs f).faults = s.faults := rfl
@[simp] theorem onHubs_regs (f : Table Hub → Table Hub) : (s.onHubs f).regs = s.regs := rfl
@[simp] theorem onHubs_mboxes (f : Table Hub → Table Hub) : (s.onHubs f).mboxes = s.mboxes := rfl
@[simp] theorem onHubs_cofin (f : Table Hub → Table Hub) : (s.onHubs f).cofin = s.cofin := rfl
@[simp] theorem onHubs_job (f : Table Hub → Table Hub) : (s.onHubs f).job = s.job := rfl
@[simp] theorem onHubs_sealSt (f : Table Hub → Table Hub) : (s.onHubs f).sealSt = s.sealSt := rfl
@[simp] theorem onHubs_cores (f : Table Hub → Table Hub) : (s.onHubs f).cores = s.cores := rfl
@[simp] theorem onHubs_coreMap (f : Table Hub → Table Hub) : (s.onHubs f).coreMap = s.coreMap := rfl
@[simp] theorem onHubs_repairs (f : Table Hub → Table Hub) : (s.onHubs f).repairs = s.repairs := rfl
@[simp] theorem onHubs_hubs (f : Table Hub → Table Hub) : (s.onHubs f).hubs = f s.hubs := rfl
@[simp] theorem onHubs_hbmStacks (f : Table Hub → Table Hub) : (s.onHubs f).hbmStacks = s.hbmStacks := rfl
@[simp] theorem onHubs_mem (f : Table Hub → Table Hub) : (s.onHubs f).mem = s.mem := rfl
@[simp] theorem onHubs_poison (f : Table Hub → Table Hub) : (s.onHubs f).poison = s.poison := rfl
@[simp] theorem onHubs_dir (f : Table Hub → Table Hub) : (s.onHubs f).dir = s.dir := rfl
@[simp] theorem onHubs_rowSplit (f : Table Hub → Table Hub) : (s.onHubs f).rowSplit = s.rowSplit := rfl
@[simp] theorem onHubs_links (f : Table Hub → Table Hub) : (s.onHubs f).links = s.links := rfl
@[simp] theorem onHubs_ports (f : Table Hub → Table Hub) : (s.onHubs f).ports = s.ports := rfl
@[simp] theorem onHubs_router (f : Table Hub → Table Hub) : (s.onHubs f).router = s.router := rfl
@[simp] theorem onHubs_gws (f : Table Hub → Table Hub) : (s.onHubs f).gws = s.gws := rfl
@[simp] theorem onHubs_survey (f : Table Hub → Table Hub) : (s.onHubs f).survey = s.survey := rfl
@[simp] theorem onHubs_topo (f : Table Hub → Table Hub) : (s.onHubs f).topo = s.topo := rfl
@[simp] theorem onHubs_power (f : Table Hub → Table Hub) : (s.onHubs f).power = s.power := rfl
@[simp] theorem onHubs_integ (f : Table Hub → Table Hub) : (s.onHubs f).integ = s.integ := rfl
@[simp] theorem onHubs_dump (f : Table Hub → Table Hub) : (s.onHubs f).dump = s.dump := rfl
@[simp] theorem onHubs_sec (f : Table Hub → Table Hub) : (s.onHubs f).sec = s.sec := rfl
@[simp] theorem onHubs_mgmt (f : Table Hub → Table Hub) : (s.onHubs f).mgmt = s.mgmt := rfl
@[simp] theorem onHubs_free (f : Table Hub → Table Hub) : (s.onHubs f).free = s.free := rfl
@[simp] theorem onHubs_emitted (f : Table Hub → Table Hub) : (s.onHubs f).emitted = s.emitted := rfl
@[simp] theorem onHubs_pending (f : Table Hub → Table Hub) : (s.onHubs f).pending = s.pending := rfl

@[simp] theorem onStacks_fuses (f : Table Stack → Table Stack) : (s.onStacks f).fuses = s.fuses := rfl
@[simp] theorem onStacks_dev (f : Table Stack → Table Stack) : (s.onStacks f).dev = s.dev := rfl
@[simp] theorem onStacks_clock (f : Table Stack → Table Stack) : (s.onStacks f).clock = s.clock := rfl
@[simp] theorem onStacks_mer (f : Table Stack → Table Stack) : (s.onStacks f).mer = s.mer := rfl
@[simp] theorem onStacks_log (f : Table Stack → Table Stack) : (s.onStacks f).log = s.log := rfl
@[simp] theorem onStacks_faults (f : Table Stack → Table Stack) : (s.onStacks f).faults = s.faults := rfl
@[simp] theorem onStacks_regs (f : Table Stack → Table Stack) : (s.onStacks f).regs = s.regs := rfl
@[simp] theorem onStacks_mboxes (f : Table Stack → Table Stack) : (s.onStacks f).mboxes = s.mboxes := rfl
@[simp] theorem onStacks_cofin (f : Table Stack → Table Stack) : (s.onStacks f).cofin = s.cofin := rfl
@[simp] theorem onStacks_job (f : Table Stack → Table Stack) : (s.onStacks f).job = s.job := rfl
@[simp] theorem onStacks_sealSt (f : Table Stack → Table Stack) : (s.onStacks f).sealSt = s.sealSt := rfl
@[simp] theorem onStacks_cores (f : Table Stack → Table Stack) : (s.onStacks f).cores = s.cores := rfl
@[simp] theorem onStacks_coreMap (f : Table Stack → Table Stack) : (s.onStacks f).coreMap = s.coreMap := rfl
@[simp] theorem onStacks_repairs (f : Table Stack → Table Stack) : (s.onStacks f).repairs = s.repairs := rfl
@[simp] theorem onStacks_hubs (f : Table Stack → Table Stack) : (s.onStacks f).hubs = s.hubs := rfl
@[simp] theorem onStacks_hbmStacks (f : Table Stack → Table Stack) : (s.onStacks f).hbmStacks = f s.hbmStacks := rfl
@[simp] theorem onStacks_mem (f : Table Stack → Table Stack) : (s.onStacks f).mem = s.mem := rfl
@[simp] theorem onStacks_poison (f : Table Stack → Table Stack) : (s.onStacks f).poison = s.poison := rfl
@[simp] theorem onStacks_dir (f : Table Stack → Table Stack) : (s.onStacks f).dir = s.dir := rfl
@[simp] theorem onStacks_rowSplit (f : Table Stack → Table Stack) : (s.onStacks f).rowSplit = s.rowSplit := rfl
@[simp] theorem onStacks_links (f : Table Stack → Table Stack) : (s.onStacks f).links = s.links := rfl
@[simp] theorem onStacks_ports (f : Table Stack → Table Stack) : (s.onStacks f).ports = s.ports := rfl
@[simp] theorem onStacks_router (f : Table Stack → Table Stack) : (s.onStacks f).router = s.router := rfl
@[simp] theorem onStacks_gws (f : Table Stack → Table Stack) : (s.onStacks f).gws = s.gws := rfl
@[simp] theorem onStacks_survey (f : Table Stack → Table Stack) : (s.onStacks f).survey = s.survey := rfl
@[simp] theorem onStacks_topo (f : Table Stack → Table Stack) : (s.onStacks f).topo = s.topo := rfl
@[simp] theorem onStacks_power (f : Table Stack → Table Stack) : (s.onStacks f).power = s.power := rfl
@[simp] theorem onStacks_integ (f : Table Stack → Table Stack) : (s.onStacks f).integ = s.integ := rfl
@[simp] theorem onStacks_dump (f : Table Stack → Table Stack) : (s.onStacks f).dump = s.dump := rfl
@[simp] theorem onStacks_sec (f : Table Stack → Table Stack) : (s.onStacks f).sec = s.sec := rfl
@[simp] theorem onStacks_mgmt (f : Table Stack → Table Stack) : (s.onStacks f).mgmt = s.mgmt := rfl
@[simp] theorem onStacks_free (f : Table Stack → Table Stack) : (s.onStacks f).free = s.free := rfl
@[simp] theorem onStacks_emitted (f : Table Stack → Table Stack) : (s.onStacks f).emitted = s.emitted := rfl
@[simp] theorem onStacks_pending (f : Table Stack → Table Stack) : (s.onStacks f).pending = s.pending := rfl

@[simp] theorem onMem_fuses (f : List Host.Cell → List Host.Cell) : (s.onMem f).fuses = s.fuses := rfl
@[simp] theorem onMem_dev (f : List Host.Cell → List Host.Cell) : (s.onMem f).dev = s.dev := rfl
@[simp] theorem onMem_clock (f : List Host.Cell → List Host.Cell) : (s.onMem f).clock = s.clock := rfl
@[simp] theorem onMem_mer (f : List Host.Cell → List Host.Cell) : (s.onMem f).mer = s.mer := rfl
@[simp] theorem onMem_log (f : List Host.Cell → List Host.Cell) : (s.onMem f).log = s.log := rfl
@[simp] theorem onMem_faults (f : List Host.Cell → List Host.Cell) : (s.onMem f).faults = s.faults := rfl
@[simp] theorem onMem_regs (f : List Host.Cell → List Host.Cell) : (s.onMem f).regs = s.regs := rfl
@[simp] theorem onMem_mboxes (f : List Host.Cell → List Host.Cell) : (s.onMem f).mboxes = s.mboxes := rfl
@[simp] theorem onMem_cofin (f : List Host.Cell → List Host.Cell) : (s.onMem f).cofin = s.cofin := rfl
@[simp] theorem onMem_job (f : List Host.Cell → List Host.Cell) : (s.onMem f).job = s.job := rfl
@[simp] theorem onMem_sealSt (f : List Host.Cell → List Host.Cell) : (s.onMem f).sealSt = s.sealSt := rfl
@[simp] theorem onMem_cores (f : List Host.Cell → List Host.Cell) : (s.onMem f).cores = s.cores := rfl
@[simp] theorem onMem_coreMap (f : List Host.Cell → List Host.Cell) : (s.onMem f).coreMap = s.coreMap := rfl
@[simp] theorem onMem_repairs (f : List Host.Cell → List Host.Cell) : (s.onMem f).repairs = s.repairs := rfl
@[simp] theorem onMem_hubs (f : List Host.Cell → List Host.Cell) : (s.onMem f).hubs = s.hubs := rfl
@[simp] theorem onMem_hbmStacks (f : List Host.Cell → List Host.Cell) : (s.onMem f).hbmStacks = s.hbmStacks := rfl
@[simp] theorem onMem_mem (f : List Host.Cell → List Host.Cell) : (s.onMem f).mem = f s.mem := rfl
@[simp] theorem onMem_poison (f : List Host.Cell → List Host.Cell) : (s.onMem f).poison = s.poison := rfl
@[simp] theorem onMem_dir (f : List Host.Cell → List Host.Cell) : (s.onMem f).dir = s.dir := rfl
@[simp] theorem onMem_rowSplit (f : List Host.Cell → List Host.Cell) : (s.onMem f).rowSplit = s.rowSplit := rfl
@[simp] theorem onMem_links (f : List Host.Cell → List Host.Cell) : (s.onMem f).links = s.links := rfl
@[simp] theorem onMem_ports (f : List Host.Cell → List Host.Cell) : (s.onMem f).ports = s.ports := rfl
@[simp] theorem onMem_router (f : List Host.Cell → List Host.Cell) : (s.onMem f).router = s.router := rfl
@[simp] theorem onMem_gws (f : List Host.Cell → List Host.Cell) : (s.onMem f).gws = s.gws := rfl
@[simp] theorem onMem_survey (f : List Host.Cell → List Host.Cell) : (s.onMem f).survey = s.survey := rfl
@[simp] theorem onMem_topo (f : List Host.Cell → List Host.Cell) : (s.onMem f).topo = s.topo := rfl
@[simp] theorem onMem_power (f : List Host.Cell → List Host.Cell) : (s.onMem f).power = s.power := rfl
@[simp] theorem onMem_integ (f : List Host.Cell → List Host.Cell) : (s.onMem f).integ = s.integ := rfl
@[simp] theorem onMem_dump (f : List Host.Cell → List Host.Cell) : (s.onMem f).dump = s.dump := rfl
@[simp] theorem onMem_sec (f : List Host.Cell → List Host.Cell) : (s.onMem f).sec = s.sec := rfl
@[simp] theorem onMem_mgmt (f : List Host.Cell → List Host.Cell) : (s.onMem f).mgmt = s.mgmt := rfl
@[simp] theorem onMem_free (f : List Host.Cell → List Host.Cell) : (s.onMem f).free = s.free := rfl
@[simp] theorem onMem_emitted (f : List Host.Cell → List Host.Cell) : (s.onMem f).emitted = s.emitted := rfl
@[simp] theorem onMem_pending (f : List Host.Cell → List Host.Cell) : (s.onMem f).pending = s.pending := rfl

@[simp] theorem onPoison_fuses (f : Table Bool → Table Bool) : (s.onPoison f).fuses = s.fuses := rfl
@[simp] theorem onPoison_dev (f : Table Bool → Table Bool) : (s.onPoison f).dev = s.dev := rfl
@[simp] theorem onPoison_clock (f : Table Bool → Table Bool) : (s.onPoison f).clock = s.clock := rfl
@[simp] theorem onPoison_mer (f : Table Bool → Table Bool) : (s.onPoison f).mer = s.mer := rfl
@[simp] theorem onPoison_log (f : Table Bool → Table Bool) : (s.onPoison f).log = s.log := rfl
@[simp] theorem onPoison_faults (f : Table Bool → Table Bool) : (s.onPoison f).faults = s.faults := rfl
@[simp] theorem onPoison_regs (f : Table Bool → Table Bool) : (s.onPoison f).regs = s.regs := rfl
@[simp] theorem onPoison_mboxes (f : Table Bool → Table Bool) : (s.onPoison f).mboxes = s.mboxes := rfl
@[simp] theorem onPoison_cofin (f : Table Bool → Table Bool) : (s.onPoison f).cofin = s.cofin := rfl
@[simp] theorem onPoison_job (f : Table Bool → Table Bool) : (s.onPoison f).job = s.job := rfl
@[simp] theorem onPoison_sealSt (f : Table Bool → Table Bool) : (s.onPoison f).sealSt = s.sealSt := rfl
@[simp] theorem onPoison_cores (f : Table Bool → Table Bool) : (s.onPoison f).cores = s.cores := rfl
@[simp] theorem onPoison_coreMap (f : Table Bool → Table Bool) : (s.onPoison f).coreMap = s.coreMap := rfl
@[simp] theorem onPoison_repairs (f : Table Bool → Table Bool) : (s.onPoison f).repairs = s.repairs := rfl
@[simp] theorem onPoison_hubs (f : Table Bool → Table Bool) : (s.onPoison f).hubs = s.hubs := rfl
@[simp] theorem onPoison_hbmStacks (f : Table Bool → Table Bool) : (s.onPoison f).hbmStacks = s.hbmStacks := rfl
@[simp] theorem onPoison_mem (f : Table Bool → Table Bool) : (s.onPoison f).mem = s.mem := rfl
@[simp] theorem onPoison_poison (f : Table Bool → Table Bool) : (s.onPoison f).poison = f s.poison := rfl
@[simp] theorem onPoison_dir (f : Table Bool → Table Bool) : (s.onPoison f).dir = s.dir := rfl
@[simp] theorem onPoison_rowSplit (f : Table Bool → Table Bool) : (s.onPoison f).rowSplit = s.rowSplit := rfl
@[simp] theorem onPoison_links (f : Table Bool → Table Bool) : (s.onPoison f).links = s.links := rfl
@[simp] theorem onPoison_ports (f : Table Bool → Table Bool) : (s.onPoison f).ports = s.ports := rfl
@[simp] theorem onPoison_router (f : Table Bool → Table Bool) : (s.onPoison f).router = s.router := rfl
@[simp] theorem onPoison_gws (f : Table Bool → Table Bool) : (s.onPoison f).gws = s.gws := rfl
@[simp] theorem onPoison_survey (f : Table Bool → Table Bool) : (s.onPoison f).survey = s.survey := rfl
@[simp] theorem onPoison_topo (f : Table Bool → Table Bool) : (s.onPoison f).topo = s.topo := rfl
@[simp] theorem onPoison_power (f : Table Bool → Table Bool) : (s.onPoison f).power = s.power := rfl
@[simp] theorem onPoison_integ (f : Table Bool → Table Bool) : (s.onPoison f).integ = s.integ := rfl
@[simp] theorem onPoison_dump (f : Table Bool → Table Bool) : (s.onPoison f).dump = s.dump := rfl
@[simp] theorem onPoison_sec (f : Table Bool → Table Bool) : (s.onPoison f).sec = s.sec := rfl
@[simp] theorem onPoison_mgmt (f : Table Bool → Table Bool) : (s.onPoison f).mgmt = s.mgmt := rfl
@[simp] theorem onPoison_free (f : Table Bool → Table Bool) : (s.onPoison f).free = s.free := rfl
@[simp] theorem onPoison_emitted (f : Table Bool → Table Bool) : (s.onPoison f).emitted = s.emitted := rfl
@[simp] theorem onPoison_pending (f : Table Bool → Table Bool) : (s.onPoison f).pending = s.pending := rfl

@[simp] theorem onDir_fuses (f : Table DirEntry → Table DirEntry) : (s.onDir f).fuses = s.fuses := rfl
@[simp] theorem onDir_dev (f : Table DirEntry → Table DirEntry) : (s.onDir f).dev = s.dev := rfl
@[simp] theorem onDir_clock (f : Table DirEntry → Table DirEntry) : (s.onDir f).clock = s.clock := rfl
@[simp] theorem onDir_mer (f : Table DirEntry → Table DirEntry) : (s.onDir f).mer = s.mer := rfl
@[simp] theorem onDir_log (f : Table DirEntry → Table DirEntry) : (s.onDir f).log = s.log := rfl
@[simp] theorem onDir_faults (f : Table DirEntry → Table DirEntry) : (s.onDir f).faults = s.faults := rfl
@[simp] theorem onDir_regs (f : Table DirEntry → Table DirEntry) : (s.onDir f).regs = s.regs := rfl
@[simp] theorem onDir_mboxes (f : Table DirEntry → Table DirEntry) : (s.onDir f).mboxes = s.mboxes := rfl
@[simp] theorem onDir_cofin (f : Table DirEntry → Table DirEntry) : (s.onDir f).cofin = s.cofin := rfl
@[simp] theorem onDir_job (f : Table DirEntry → Table DirEntry) : (s.onDir f).job = s.job := rfl
@[simp] theorem onDir_sealSt (f : Table DirEntry → Table DirEntry) : (s.onDir f).sealSt = s.sealSt := rfl
@[simp] theorem onDir_cores (f : Table DirEntry → Table DirEntry) : (s.onDir f).cores = s.cores := rfl
@[simp] theorem onDir_coreMap (f : Table DirEntry → Table DirEntry) : (s.onDir f).coreMap = s.coreMap := rfl
@[simp] theorem onDir_repairs (f : Table DirEntry → Table DirEntry) : (s.onDir f).repairs = s.repairs := rfl
@[simp] theorem onDir_hubs (f : Table DirEntry → Table DirEntry) : (s.onDir f).hubs = s.hubs := rfl
@[simp] theorem onDir_hbmStacks (f : Table DirEntry → Table DirEntry) : (s.onDir f).hbmStacks = s.hbmStacks := rfl
@[simp] theorem onDir_mem (f : Table DirEntry → Table DirEntry) : (s.onDir f).mem = s.mem := rfl
@[simp] theorem onDir_poison (f : Table DirEntry → Table DirEntry) : (s.onDir f).poison = s.poison := rfl
@[simp] theorem onDir_dir (f : Table DirEntry → Table DirEntry) : (s.onDir f).dir = f s.dir := rfl
@[simp] theorem onDir_rowSplit (f : Table DirEntry → Table DirEntry) : (s.onDir f).rowSplit = s.rowSplit := rfl
@[simp] theorem onDir_links (f : Table DirEntry → Table DirEntry) : (s.onDir f).links = s.links := rfl
@[simp] theorem onDir_ports (f : Table DirEntry → Table DirEntry) : (s.onDir f).ports = s.ports := rfl
@[simp] theorem onDir_router (f : Table DirEntry → Table DirEntry) : (s.onDir f).router = s.router := rfl
@[simp] theorem onDir_gws (f : Table DirEntry → Table DirEntry) : (s.onDir f).gws = s.gws := rfl
@[simp] theorem onDir_survey (f : Table DirEntry → Table DirEntry) : (s.onDir f).survey = s.survey := rfl
@[simp] theorem onDir_topo (f : Table DirEntry → Table DirEntry) : (s.onDir f).topo = s.topo := rfl
@[simp] theorem onDir_power (f : Table DirEntry → Table DirEntry) : (s.onDir f).power = s.power := rfl
@[simp] theorem onDir_integ (f : Table DirEntry → Table DirEntry) : (s.onDir f).integ = s.integ := rfl
@[simp] theorem onDir_dump (f : Table DirEntry → Table DirEntry) : (s.onDir f).dump = s.dump := rfl
@[simp] theorem onDir_sec (f : Table DirEntry → Table DirEntry) : (s.onDir f).sec = s.sec := rfl
@[simp] theorem onDir_mgmt (f : Table DirEntry → Table DirEntry) : (s.onDir f).mgmt = s.mgmt := rfl
@[simp] theorem onDir_free (f : Table DirEntry → Table DirEntry) : (s.onDir f).free = s.free := rfl
@[simp] theorem onDir_emitted (f : Table DirEntry → Table DirEntry) : (s.onDir f).emitted = s.emitted := rfl
@[simp] theorem onDir_pending (f : Table DirEntry → Table DirEntry) : (s.onDir f).pending = s.pending := rfl

@[simp] theorem onRowSplit_fuses (f : Nat → Nat) : (s.onRowSplit f).fuses = s.fuses := rfl
@[simp] theorem onRowSplit_dev (f : Nat → Nat) : (s.onRowSplit f).dev = s.dev := rfl
@[simp] theorem onRowSplit_clock (f : Nat → Nat) : (s.onRowSplit f).clock = s.clock := rfl
@[simp] theorem onRowSplit_mer (f : Nat → Nat) : (s.onRowSplit f).mer = s.mer := rfl
@[simp] theorem onRowSplit_log (f : Nat → Nat) : (s.onRowSplit f).log = s.log := rfl
@[simp] theorem onRowSplit_faults (f : Nat → Nat) : (s.onRowSplit f).faults = s.faults := rfl
@[simp] theorem onRowSplit_regs (f : Nat → Nat) : (s.onRowSplit f).regs = s.regs := rfl
@[simp] theorem onRowSplit_mboxes (f : Nat → Nat) : (s.onRowSplit f).mboxes = s.mboxes := rfl
@[simp] theorem onRowSplit_cofin (f : Nat → Nat) : (s.onRowSplit f).cofin = s.cofin := rfl
@[simp] theorem onRowSplit_job (f : Nat → Nat) : (s.onRowSplit f).job = s.job := rfl
@[simp] theorem onRowSplit_sealSt (f : Nat → Nat) : (s.onRowSplit f).sealSt = s.sealSt := rfl
@[simp] theorem onRowSplit_cores (f : Nat → Nat) : (s.onRowSplit f).cores = s.cores := rfl
@[simp] theorem onRowSplit_coreMap (f : Nat → Nat) : (s.onRowSplit f).coreMap = s.coreMap := rfl
@[simp] theorem onRowSplit_repairs (f : Nat → Nat) : (s.onRowSplit f).repairs = s.repairs := rfl
@[simp] theorem onRowSplit_hubs (f : Nat → Nat) : (s.onRowSplit f).hubs = s.hubs := rfl
@[simp] theorem onRowSplit_hbmStacks (f : Nat → Nat) : (s.onRowSplit f).hbmStacks = s.hbmStacks := rfl
@[simp] theorem onRowSplit_mem (f : Nat → Nat) : (s.onRowSplit f).mem = s.mem := rfl
@[simp] theorem onRowSplit_poison (f : Nat → Nat) : (s.onRowSplit f).poison = s.poison := rfl
@[simp] theorem onRowSplit_dir (f : Nat → Nat) : (s.onRowSplit f).dir = s.dir := rfl
@[simp] theorem onRowSplit_rowSplit (f : Nat → Nat) : (s.onRowSplit f).rowSplit = f s.rowSplit := rfl
@[simp] theorem onRowSplit_links (f : Nat → Nat) : (s.onRowSplit f).links = s.links := rfl
@[simp] theorem onRowSplit_ports (f : Nat → Nat) : (s.onRowSplit f).ports = s.ports := rfl
@[simp] theorem onRowSplit_router (f : Nat → Nat) : (s.onRowSplit f).router = s.router := rfl
@[simp] theorem onRowSplit_gws (f : Nat → Nat) : (s.onRowSplit f).gws = s.gws := rfl
@[simp] theorem onRowSplit_survey (f : Nat → Nat) : (s.onRowSplit f).survey = s.survey := rfl
@[simp] theorem onRowSplit_topo (f : Nat → Nat) : (s.onRowSplit f).topo = s.topo := rfl
@[simp] theorem onRowSplit_power (f : Nat → Nat) : (s.onRowSplit f).power = s.power := rfl
@[simp] theorem onRowSplit_integ (f : Nat → Nat) : (s.onRowSplit f).integ = s.integ := rfl
@[simp] theorem onRowSplit_dump (f : Nat → Nat) : (s.onRowSplit f).dump = s.dump := rfl
@[simp] theorem onRowSplit_sec (f : Nat → Nat) : (s.onRowSplit f).sec = s.sec := rfl
@[simp] theorem onRowSplit_mgmt (f : Nat → Nat) : (s.onRowSplit f).mgmt = s.mgmt := rfl
@[simp] theorem onRowSplit_free (f : Nat → Nat) : (s.onRowSplit f).free = s.free := rfl
@[simp] theorem onRowSplit_emitted (f : Nat → Nat) : (s.onRowSplit f).emitted = s.emitted := rfl
@[simp] theorem onRowSplit_pending (f : Nat → Nat) : (s.onRowSplit f).pending = s.pending := rfl

@[simp] theorem onLinks_fuses (f : Table Link → Table Link) : (s.onLinks f).fuses = s.fuses := rfl
@[simp] theorem onLinks_dev (f : Table Link → Table Link) : (s.onLinks f).dev = s.dev := rfl
@[simp] theorem onLinks_clock (f : Table Link → Table Link) : (s.onLinks f).clock = s.clock := rfl
@[simp] theorem onLinks_mer (f : Table Link → Table Link) : (s.onLinks f).mer = s.mer := rfl
@[simp] theorem onLinks_log (f : Table Link → Table Link) : (s.onLinks f).log = s.log := rfl
@[simp] theorem onLinks_faults (f : Table Link → Table Link) : (s.onLinks f).faults = s.faults := rfl
@[simp] theorem onLinks_regs (f : Table Link → Table Link) : (s.onLinks f).regs = s.regs := rfl
@[simp] theorem onLinks_mboxes (f : Table Link → Table Link) : (s.onLinks f).mboxes = s.mboxes := rfl
@[simp] theorem onLinks_cofin (f : Table Link → Table Link) : (s.onLinks f).cofin = s.cofin := rfl
@[simp] theorem onLinks_job (f : Table Link → Table Link) : (s.onLinks f).job = s.job := rfl
@[simp] theorem onLinks_sealSt (f : Table Link → Table Link) : (s.onLinks f).sealSt = s.sealSt := rfl
@[simp] theorem onLinks_cores (f : Table Link → Table Link) : (s.onLinks f).cores = s.cores := rfl
@[simp] theorem onLinks_coreMap (f : Table Link → Table Link) : (s.onLinks f).coreMap = s.coreMap := rfl
@[simp] theorem onLinks_repairs (f : Table Link → Table Link) : (s.onLinks f).repairs = s.repairs := rfl
@[simp] theorem onLinks_hubs (f : Table Link → Table Link) : (s.onLinks f).hubs = s.hubs := rfl
@[simp] theorem onLinks_hbmStacks (f : Table Link → Table Link) : (s.onLinks f).hbmStacks = s.hbmStacks := rfl
@[simp] theorem onLinks_mem (f : Table Link → Table Link) : (s.onLinks f).mem = s.mem := rfl
@[simp] theorem onLinks_poison (f : Table Link → Table Link) : (s.onLinks f).poison = s.poison := rfl
@[simp] theorem onLinks_dir (f : Table Link → Table Link) : (s.onLinks f).dir = s.dir := rfl
@[simp] theorem onLinks_rowSplit (f : Table Link → Table Link) : (s.onLinks f).rowSplit = s.rowSplit := rfl
@[simp] theorem onLinks_links (f : Table Link → Table Link) : (s.onLinks f).links = f s.links := rfl
@[simp] theorem onLinks_ports (f : Table Link → Table Link) : (s.onLinks f).ports = s.ports := rfl
@[simp] theorem onLinks_router (f : Table Link → Table Link) : (s.onLinks f).router = s.router := rfl
@[simp] theorem onLinks_gws (f : Table Link → Table Link) : (s.onLinks f).gws = s.gws := rfl
@[simp] theorem onLinks_survey (f : Table Link → Table Link) : (s.onLinks f).survey = s.survey := rfl
@[simp] theorem onLinks_topo (f : Table Link → Table Link) : (s.onLinks f).topo = s.topo := rfl
@[simp] theorem onLinks_power (f : Table Link → Table Link) : (s.onLinks f).power = s.power := rfl
@[simp] theorem onLinks_integ (f : Table Link → Table Link) : (s.onLinks f).integ = s.integ := rfl
@[simp] theorem onLinks_dump (f : Table Link → Table Link) : (s.onLinks f).dump = s.dump := rfl
@[simp] theorem onLinks_sec (f : Table Link → Table Link) : (s.onLinks f).sec = s.sec := rfl
@[simp] theorem onLinks_mgmt (f : Table Link → Table Link) : (s.onLinks f).mgmt = s.mgmt := rfl
@[simp] theorem onLinks_free (f : Table Link → Table Link) : (s.onLinks f).free = s.free := rfl
@[simp] theorem onLinks_emitted (f : Table Link → Table Link) : (s.onLinks f).emitted = s.emitted := rfl
@[simp] theorem onLinks_pending (f : Table Link → Table Link) : (s.onLinks f).pending = s.pending := rfl

@[simp] theorem onPorts_fuses (f : Table Port → Table Port) : (s.onPorts f).fuses = s.fuses := rfl
@[simp] theorem onPorts_dev (f : Table Port → Table Port) : (s.onPorts f).dev = s.dev := rfl
@[simp] theorem onPorts_clock (f : Table Port → Table Port) : (s.onPorts f).clock = s.clock := rfl
@[simp] theorem onPorts_mer (f : Table Port → Table Port) : (s.onPorts f).mer = s.mer := rfl
@[simp] theorem onPorts_log (f : Table Port → Table Port) : (s.onPorts f).log = s.log := rfl
@[simp] theorem onPorts_faults (f : Table Port → Table Port) : (s.onPorts f).faults = s.faults := rfl
@[simp] theorem onPorts_regs (f : Table Port → Table Port) : (s.onPorts f).regs = s.regs := rfl
@[simp] theorem onPorts_mboxes (f : Table Port → Table Port) : (s.onPorts f).mboxes = s.mboxes := rfl
@[simp] theorem onPorts_cofin (f : Table Port → Table Port) : (s.onPorts f).cofin = s.cofin := rfl
@[simp] theorem onPorts_job (f : Table Port → Table Port) : (s.onPorts f).job = s.job := rfl
@[simp] theorem onPorts_sealSt (f : Table Port → Table Port) : (s.onPorts f).sealSt = s.sealSt := rfl
@[simp] theorem onPorts_cores (f : Table Port → Table Port) : (s.onPorts f).cores = s.cores := rfl
@[simp] theorem onPorts_coreMap (f : Table Port → Table Port) : (s.onPorts f).coreMap = s.coreMap := rfl
@[simp] theorem onPorts_repairs (f : Table Port → Table Port) : (s.onPorts f).repairs = s.repairs := rfl
@[simp] theorem onPorts_hubs (f : Table Port → Table Port) : (s.onPorts f).hubs = s.hubs := rfl
@[simp] theorem onPorts_hbmStacks (f : Table Port → Table Port) : (s.onPorts f).hbmStacks = s.hbmStacks := rfl
@[simp] theorem onPorts_mem (f : Table Port → Table Port) : (s.onPorts f).mem = s.mem := rfl
@[simp] theorem onPorts_poison (f : Table Port → Table Port) : (s.onPorts f).poison = s.poison := rfl
@[simp] theorem onPorts_dir (f : Table Port → Table Port) : (s.onPorts f).dir = s.dir := rfl
@[simp] theorem onPorts_rowSplit (f : Table Port → Table Port) : (s.onPorts f).rowSplit = s.rowSplit := rfl
@[simp] theorem onPorts_links (f : Table Port → Table Port) : (s.onPorts f).links = s.links := rfl
@[simp] theorem onPorts_ports (f : Table Port → Table Port) : (s.onPorts f).ports = f s.ports := rfl
@[simp] theorem onPorts_router (f : Table Port → Table Port) : (s.onPorts f).router = s.router := rfl
@[simp] theorem onPorts_gws (f : Table Port → Table Port) : (s.onPorts f).gws = s.gws := rfl
@[simp] theorem onPorts_survey (f : Table Port → Table Port) : (s.onPorts f).survey = s.survey := rfl
@[simp] theorem onPorts_topo (f : Table Port → Table Port) : (s.onPorts f).topo = s.topo := rfl
@[simp] theorem onPorts_power (f : Table Port → Table Port) : (s.onPorts f).power = s.power := rfl
@[simp] theorem onPorts_integ (f : Table Port → Table Port) : (s.onPorts f).integ = s.integ := rfl
@[simp] theorem onPorts_dump (f : Table Port → Table Port) : (s.onPorts f).dump = s.dump := rfl
@[simp] theorem onPorts_sec (f : Table Port → Table Port) : (s.onPorts f).sec = s.sec := rfl
@[simp] theorem onPorts_mgmt (f : Table Port → Table Port) : (s.onPorts f).mgmt = s.mgmt := rfl
@[simp] theorem onPorts_free (f : Table Port → Table Port) : (s.onPorts f).free = s.free := rfl
@[simp] theorem onPorts_emitted (f : Table Port → Table Port) : (s.onPorts f).emitted = s.emitted := rfl
@[simp] theorem onPorts_pending (f : Table Port → Table Port) : (s.onPorts f).pending = s.pending := rfl

@[simp] theorem onRouter_fuses (f : Router → Router) : (s.onRouter f).fuses = s.fuses := rfl
@[simp] theorem onRouter_dev (f : Router → Router) : (s.onRouter f).dev = s.dev := rfl
@[simp] theorem onRouter_clock (f : Router → Router) : (s.onRouter f).clock = s.clock := rfl
@[simp] theorem onRouter_mer (f : Router → Router) : (s.onRouter f).mer = s.mer := rfl
@[simp] theorem onRouter_log (f : Router → Router) : (s.onRouter f).log = s.log := rfl
@[simp] theorem onRouter_faults (f : Router → Router) : (s.onRouter f).faults = s.faults := rfl
@[simp] theorem onRouter_regs (f : Router → Router) : (s.onRouter f).regs = s.regs := rfl
@[simp] theorem onRouter_mboxes (f : Router → Router) : (s.onRouter f).mboxes = s.mboxes := rfl
@[simp] theorem onRouter_cofin (f : Router → Router) : (s.onRouter f).cofin = s.cofin := rfl
@[simp] theorem onRouter_job (f : Router → Router) : (s.onRouter f).job = s.job := rfl
@[simp] theorem onRouter_sealSt (f : Router → Router) : (s.onRouter f).sealSt = s.sealSt := rfl
@[simp] theorem onRouter_cores (f : Router → Router) : (s.onRouter f).cores = s.cores := rfl
@[simp] theorem onRouter_coreMap (f : Router → Router) : (s.onRouter f).coreMap = s.coreMap := rfl
@[simp] theorem onRouter_repairs (f : Router → Router) : (s.onRouter f).repairs = s.repairs := rfl
@[simp] theorem onRouter_hubs (f : Router → Router) : (s.onRouter f).hubs = s.hubs := rfl
@[simp] theorem onRouter_hbmStacks (f : Router → Router) : (s.onRouter f).hbmStacks = s.hbmStacks := rfl
@[simp] theorem onRouter_mem (f : Router → Router) : (s.onRouter f).mem = s.mem := rfl
@[simp] theorem onRouter_poison (f : Router → Router) : (s.onRouter f).poison = s.poison := rfl
@[simp] theorem onRouter_dir (f : Router → Router) : (s.onRouter f).dir = s.dir := rfl
@[simp] theorem onRouter_rowSplit (f : Router → Router) : (s.onRouter f).rowSplit = s.rowSplit := rfl
@[simp] theorem onRouter_links (f : Router → Router) : (s.onRouter f).links = s.links := rfl
@[simp] theorem onRouter_ports (f : Router → Router) : (s.onRouter f).ports = s.ports := rfl
@[simp] theorem onRouter_router (f : Router → Router) : (s.onRouter f).router = f s.router := rfl
@[simp] theorem onRouter_gws (f : Router → Router) : (s.onRouter f).gws = s.gws := rfl
@[simp] theorem onRouter_survey (f : Router → Router) : (s.onRouter f).survey = s.survey := rfl
@[simp] theorem onRouter_topo (f : Router → Router) : (s.onRouter f).topo = s.topo := rfl
@[simp] theorem onRouter_power (f : Router → Router) : (s.onRouter f).power = s.power := rfl
@[simp] theorem onRouter_integ (f : Router → Router) : (s.onRouter f).integ = s.integ := rfl
@[simp] theorem onRouter_dump (f : Router → Router) : (s.onRouter f).dump = s.dump := rfl
@[simp] theorem onRouter_sec (f : Router → Router) : (s.onRouter f).sec = s.sec := rfl
@[simp] theorem onRouter_mgmt (f : Router → Router) : (s.onRouter f).mgmt = s.mgmt := rfl
@[simp] theorem onRouter_free (f : Router → Router) : (s.onRouter f).free = s.free := rfl
@[simp] theorem onRouter_emitted (f : Router → Router) : (s.onRouter f).emitted = s.emitted := rfl
@[simp] theorem onRouter_pending (f : Router → Router) : (s.onRouter f).pending = s.pending := rfl

@[simp] theorem onGws_fuses (f : Table Gateway → Table Gateway) : (s.onGws f).fuses = s.fuses := rfl
@[simp] theorem onGws_dev (f : Table Gateway → Table Gateway) : (s.onGws f).dev = s.dev := rfl
@[simp] theorem onGws_clock (f : Table Gateway → Table Gateway) : (s.onGws f).clock = s.clock := rfl
@[simp] theorem onGws_mer (f : Table Gateway → Table Gateway) : (s.onGws f).mer = s.mer := rfl
@[simp] theorem onGws_log (f : Table Gateway → Table Gateway) : (s.onGws f).log = s.log := rfl
@[simp] theorem onGws_faults (f : Table Gateway → Table Gateway) : (s.onGws f).faults = s.faults := rfl
@[simp] theorem onGws_regs (f : Table Gateway → Table Gateway) : (s.onGws f).regs = s.regs := rfl
@[simp] theorem onGws_mboxes (f : Table Gateway → Table Gateway) : (s.onGws f).mboxes = s.mboxes := rfl
@[simp] theorem onGws_cofin (f : Table Gateway → Table Gateway) : (s.onGws f).cofin = s.cofin := rfl
@[simp] theorem onGws_job (f : Table Gateway → Table Gateway) : (s.onGws f).job = s.job := rfl
@[simp] theorem onGws_sealSt (f : Table Gateway → Table Gateway) : (s.onGws f).sealSt = s.sealSt := rfl
@[simp] theorem onGws_cores (f : Table Gateway → Table Gateway) : (s.onGws f).cores = s.cores := rfl
@[simp] theorem onGws_coreMap (f : Table Gateway → Table Gateway) : (s.onGws f).coreMap = s.coreMap := rfl
@[simp] theorem onGws_repairs (f : Table Gateway → Table Gateway) : (s.onGws f).repairs = s.repairs := rfl
@[simp] theorem onGws_hubs (f : Table Gateway → Table Gateway) : (s.onGws f).hubs = s.hubs := rfl
@[simp] theorem onGws_hbmStacks (f : Table Gateway → Table Gateway) : (s.onGws f).hbmStacks = s.hbmStacks := rfl
@[simp] theorem onGws_mem (f : Table Gateway → Table Gateway) : (s.onGws f).mem = s.mem := rfl
@[simp] theorem onGws_poison (f : Table Gateway → Table Gateway) : (s.onGws f).poison = s.poison := rfl
@[simp] theorem onGws_dir (f : Table Gateway → Table Gateway) : (s.onGws f).dir = s.dir := rfl
@[simp] theorem onGws_rowSplit (f : Table Gateway → Table Gateway) : (s.onGws f).rowSplit = s.rowSplit := rfl
@[simp] theorem onGws_links (f : Table Gateway → Table Gateway) : (s.onGws f).links = s.links := rfl
@[simp] theorem onGws_ports (f : Table Gateway → Table Gateway) : (s.onGws f).ports = s.ports := rfl
@[simp] theorem onGws_router (f : Table Gateway → Table Gateway) : (s.onGws f).router = s.router := rfl
@[simp] theorem onGws_gws (f : Table Gateway → Table Gateway) : (s.onGws f).gws = f s.gws := rfl
@[simp] theorem onGws_survey (f : Table Gateway → Table Gateway) : (s.onGws f).survey = s.survey := rfl
@[simp] theorem onGws_topo (f : Table Gateway → Table Gateway) : (s.onGws f).topo = s.topo := rfl
@[simp] theorem onGws_power (f : Table Gateway → Table Gateway) : (s.onGws f).power = s.power := rfl
@[simp] theorem onGws_integ (f : Table Gateway → Table Gateway) : (s.onGws f).integ = s.integ := rfl
@[simp] theorem onGws_dump (f : Table Gateway → Table Gateway) : (s.onGws f).dump = s.dump := rfl
@[simp] theorem onGws_sec (f : Table Gateway → Table Gateway) : (s.onGws f).sec = s.sec := rfl
@[simp] theorem onGws_mgmt (f : Table Gateway → Table Gateway) : (s.onGws f).mgmt = s.mgmt := rfl
@[simp] theorem onGws_free (f : Table Gateway → Table Gateway) : (s.onGws f).free = s.free := rfl
@[simp] theorem onGws_emitted (f : Table Gateway → Table Gateway) : (s.onGws f).emitted = s.emitted := rfl
@[simp] theorem onGws_pending (f : Table Gateway → Table Gateway) : (s.onGws f).pending = s.pending := rfl

@[simp] theorem onSurvey_fuses (f : Survey → Survey) : (s.onSurvey f).fuses = s.fuses := rfl
@[simp] theorem onSurvey_dev (f : Survey → Survey) : (s.onSurvey f).dev = s.dev := rfl
@[simp] theorem onSurvey_clock (f : Survey → Survey) : (s.onSurvey f).clock = s.clock := rfl
@[simp] theorem onSurvey_mer (f : Survey → Survey) : (s.onSurvey f).mer = s.mer := rfl
@[simp] theorem onSurvey_log (f : Survey → Survey) : (s.onSurvey f).log = s.log := rfl
@[simp] theorem onSurvey_faults (f : Survey → Survey) : (s.onSurvey f).faults = s.faults := rfl
@[simp] theorem onSurvey_regs (f : Survey → Survey) : (s.onSurvey f).regs = s.regs := rfl
@[simp] theorem onSurvey_mboxes (f : Survey → Survey) : (s.onSurvey f).mboxes = s.mboxes := rfl
@[simp] theorem onSurvey_cofin (f : Survey → Survey) : (s.onSurvey f).cofin = s.cofin := rfl
@[simp] theorem onSurvey_job (f : Survey → Survey) : (s.onSurvey f).job = s.job := rfl
@[simp] theorem onSurvey_sealSt (f : Survey → Survey) : (s.onSurvey f).sealSt = s.sealSt := rfl
@[simp] theorem onSurvey_cores (f : Survey → Survey) : (s.onSurvey f).cores = s.cores := rfl
@[simp] theorem onSurvey_coreMap (f : Survey → Survey) : (s.onSurvey f).coreMap = s.coreMap := rfl
@[simp] theorem onSurvey_repairs (f : Survey → Survey) : (s.onSurvey f).repairs = s.repairs := rfl
@[simp] theorem onSurvey_hubs (f : Survey → Survey) : (s.onSurvey f).hubs = s.hubs := rfl
@[simp] theorem onSurvey_hbmStacks (f : Survey → Survey) : (s.onSurvey f).hbmStacks = s.hbmStacks := rfl
@[simp] theorem onSurvey_mem (f : Survey → Survey) : (s.onSurvey f).mem = s.mem := rfl
@[simp] theorem onSurvey_poison (f : Survey → Survey) : (s.onSurvey f).poison = s.poison := rfl
@[simp] theorem onSurvey_dir (f : Survey → Survey) : (s.onSurvey f).dir = s.dir := rfl
@[simp] theorem onSurvey_rowSplit (f : Survey → Survey) : (s.onSurvey f).rowSplit = s.rowSplit := rfl
@[simp] theorem onSurvey_links (f : Survey → Survey) : (s.onSurvey f).links = s.links := rfl
@[simp] theorem onSurvey_ports (f : Survey → Survey) : (s.onSurvey f).ports = s.ports := rfl
@[simp] theorem onSurvey_router (f : Survey → Survey) : (s.onSurvey f).router = s.router := rfl
@[simp] theorem onSurvey_gws (f : Survey → Survey) : (s.onSurvey f).gws = s.gws := rfl
@[simp] theorem onSurvey_survey (f : Survey → Survey) : (s.onSurvey f).survey = f s.survey := rfl
@[simp] theorem onSurvey_topo (f : Survey → Survey) : (s.onSurvey f).topo = s.topo := rfl
@[simp] theorem onSurvey_power (f : Survey → Survey) : (s.onSurvey f).power = s.power := rfl
@[simp] theorem onSurvey_integ (f : Survey → Survey) : (s.onSurvey f).integ = s.integ := rfl
@[simp] theorem onSurvey_dump (f : Survey → Survey) : (s.onSurvey f).dump = s.dump := rfl
@[simp] theorem onSurvey_sec (f : Survey → Survey) : (s.onSurvey f).sec = s.sec := rfl
@[simp] theorem onSurvey_mgmt (f : Survey → Survey) : (s.onSurvey f).mgmt = s.mgmt := rfl
@[simp] theorem onSurvey_free (f : Survey → Survey) : (s.onSurvey f).free = s.free := rfl
@[simp] theorem onSurvey_emitted (f : Survey → Survey) : (s.onSurvey f).emitted = s.emitted := rfl
@[simp] theorem onSurvey_pending (f : Survey → Survey) : (s.onSurvey f).pending = s.pending := rfl

@[simp] theorem onTopo_fuses (f : Topo → Topo) : (s.onTopo f).fuses = s.fuses := rfl
@[simp] theorem onTopo_dev (f : Topo → Topo) : (s.onTopo f).dev = s.dev := rfl
@[simp] theorem onTopo_clock (f : Topo → Topo) : (s.onTopo f).clock = s.clock := rfl
@[simp] theorem onTopo_mer (f : Topo → Topo) : (s.onTopo f).mer = s.mer := rfl
@[simp] theorem onTopo_log (f : Topo → Topo) : (s.onTopo f).log = s.log := rfl
@[simp] theorem onTopo_faults (f : Topo → Topo) : (s.onTopo f).faults = s.faults := rfl
@[simp] theorem onTopo_regs (f : Topo → Topo) : (s.onTopo f).regs = s.regs := rfl
@[simp] theorem onTopo_mboxes (f : Topo → Topo) : (s.onTopo f).mboxes = s.mboxes := rfl
@[simp] theorem onTopo_cofin (f : Topo → Topo) : (s.onTopo f).cofin = s.cofin := rfl
@[simp] theorem onTopo_job (f : Topo → Topo) : (s.onTopo f).job = s.job := rfl
@[simp] theorem onTopo_sealSt (f : Topo → Topo) : (s.onTopo f).sealSt = s.sealSt := rfl
@[simp] theorem onTopo_cores (f : Topo → Topo) : (s.onTopo f).cores = s.cores := rfl
@[simp] theorem onTopo_coreMap (f : Topo → Topo) : (s.onTopo f).coreMap = s.coreMap := rfl
@[simp] theorem onTopo_repairs (f : Topo → Topo) : (s.onTopo f).repairs = s.repairs := rfl
@[simp] theorem onTopo_hubs (f : Topo → Topo) : (s.onTopo f).hubs = s.hubs := rfl
@[simp] theorem onTopo_hbmStacks (f : Topo → Topo) : (s.onTopo f).hbmStacks = s.hbmStacks := rfl
@[simp] theorem onTopo_mem (f : Topo → Topo) : (s.onTopo f).mem = s.mem := rfl
@[simp] theorem onTopo_poison (f : Topo → Topo) : (s.onTopo f).poison = s.poison := rfl
@[simp] theorem onTopo_dir (f : Topo → Topo) : (s.onTopo f).dir = s.dir := rfl
@[simp] theorem onTopo_rowSplit (f : Topo → Topo) : (s.onTopo f).rowSplit = s.rowSplit := rfl
@[simp] theorem onTopo_links (f : Topo → Topo) : (s.onTopo f).links = s.links := rfl
@[simp] theorem onTopo_ports (f : Topo → Topo) : (s.onTopo f).ports = s.ports := rfl
@[simp] theorem onTopo_router (f : Topo → Topo) : (s.onTopo f).router = s.router := rfl
@[simp] theorem onTopo_gws (f : Topo → Topo) : (s.onTopo f).gws = s.gws := rfl
@[simp] theorem onTopo_survey (f : Topo → Topo) : (s.onTopo f).survey = s.survey := rfl
@[simp] theorem onTopo_topo (f : Topo → Topo) : (s.onTopo f).topo = f s.topo := rfl
@[simp] theorem onTopo_power (f : Topo → Topo) : (s.onTopo f).power = s.power := rfl
@[simp] theorem onTopo_integ (f : Topo → Topo) : (s.onTopo f).integ = s.integ := rfl
@[simp] theorem onTopo_dump (f : Topo → Topo) : (s.onTopo f).dump = s.dump := rfl
@[simp] theorem onTopo_sec (f : Topo → Topo) : (s.onTopo f).sec = s.sec := rfl
@[simp] theorem onTopo_mgmt (f : Topo → Topo) : (s.onTopo f).mgmt = s.mgmt := rfl
@[simp] theorem onTopo_free (f : Topo → Topo) : (s.onTopo f).free = s.free := rfl
@[simp] theorem onTopo_emitted (f : Topo → Topo) : (s.onTopo f).emitted = s.emitted := rfl
@[simp] theorem onTopo_pending (f : Topo → Topo) : (s.onTopo f).pending = s.pending := rfl

@[simp] theorem onPower_fuses (f : Power → Power) : (s.onPower f).fuses = s.fuses := rfl
@[simp] theorem onPower_dev (f : Power → Power) : (s.onPower f).dev = s.dev := rfl
@[simp] theorem onPower_clock (f : Power → Power) : (s.onPower f).clock = s.clock := rfl
@[simp] theorem onPower_mer (f : Power → Power) : (s.onPower f).mer = s.mer := rfl
@[simp] theorem onPower_log (f : Power → Power) : (s.onPower f).log = s.log := rfl
@[simp] theorem onPower_faults (f : Power → Power) : (s.onPower f).faults = s.faults := rfl
@[simp] theorem onPower_regs (f : Power → Power) : (s.onPower f).regs = s.regs := rfl
@[simp] theorem onPower_mboxes (f : Power → Power) : (s.onPower f).mboxes = s.mboxes := rfl
@[simp] theorem onPower_cofin (f : Power → Power) : (s.onPower f).cofin = s.cofin := rfl
@[simp] theorem onPower_job (f : Power → Power) : (s.onPower f).job = s.job := rfl
@[simp] theorem onPower_sealSt (f : Power → Power) : (s.onPower f).sealSt = s.sealSt := rfl
@[simp] theorem onPower_cores (f : Power → Power) : (s.onPower f).cores = s.cores := rfl
@[simp] theorem onPower_coreMap (f : Power → Power) : (s.onPower f).coreMap = s.coreMap := rfl
@[simp] theorem onPower_repairs (f : Power → Power) : (s.onPower f).repairs = s.repairs := rfl
@[simp] theorem onPower_hubs (f : Power → Power) : (s.onPower f).hubs = s.hubs := rfl
@[simp] theorem onPower_hbmStacks (f : Power → Power) : (s.onPower f).hbmStacks = s.hbmStacks := rfl
@[simp] theorem onPower_mem (f : Power → Power) : (s.onPower f).mem = s.mem := rfl
@[simp] theorem onPower_poison (f : Power → Power) : (s.onPower f).poison = s.poison := rfl
@[simp] theorem onPower_dir (f : Power → Power) : (s.onPower f).dir = s.dir := rfl
@[simp] theorem onPower_rowSplit (f : Power → Power) : (s.onPower f).rowSplit = s.rowSplit := rfl
@[simp] theorem onPower_links (f : Power → Power) : (s.onPower f).links = s.links := rfl
@[simp] theorem onPower_ports (f : Power → Power) : (s.onPower f).ports = s.ports := rfl
@[simp] theorem onPower_router (f : Power → Power) : (s.onPower f).router = s.router := rfl
@[simp] theorem onPower_gws (f : Power → Power) : (s.onPower f).gws = s.gws := rfl
@[simp] theorem onPower_survey (f : Power → Power) : (s.onPower f).survey = s.survey := rfl
@[simp] theorem onPower_topo (f : Power → Power) : (s.onPower f).topo = s.topo := rfl
@[simp] theorem onPower_power (f : Power → Power) : (s.onPower f).power = f s.power := rfl
@[simp] theorem onPower_integ (f : Power → Power) : (s.onPower f).integ = s.integ := rfl
@[simp] theorem onPower_dump (f : Power → Power) : (s.onPower f).dump = s.dump := rfl
@[simp] theorem onPower_sec (f : Power → Power) : (s.onPower f).sec = s.sec := rfl
@[simp] theorem onPower_mgmt (f : Power → Power) : (s.onPower f).mgmt = s.mgmt := rfl
@[simp] theorem onPower_free (f : Power → Power) : (s.onPower f).free = s.free := rfl
@[simp] theorem onPower_emitted (f : Power → Power) : (s.onPower f).emitted = s.emitted := rfl
@[simp] theorem onPower_pending (f : Power → Power) : (s.onPower f).pending = s.pending := rfl

@[simp] theorem onInteg_fuses (f : Integrity → Integrity) : (s.onInteg f).fuses = s.fuses := rfl
@[simp] theorem onInteg_dev (f : Integrity → Integrity) : (s.onInteg f).dev = s.dev := rfl
@[simp] theorem onInteg_clock (f : Integrity → Integrity) : (s.onInteg f).clock = s.clock := rfl
@[simp] theorem onInteg_mer (f : Integrity → Integrity) : (s.onInteg f).mer = s.mer := rfl
@[simp] theorem onInteg_log (f : Integrity → Integrity) : (s.onInteg f).log = s.log := rfl
@[simp] theorem onInteg_faults (f : Integrity → Integrity) : (s.onInteg f).faults = s.faults := rfl
@[simp] theorem onInteg_regs (f : Integrity → Integrity) : (s.onInteg f).regs = s.regs := rfl
@[simp] theorem onInteg_mboxes (f : Integrity → Integrity) : (s.onInteg f).mboxes = s.mboxes := rfl
@[simp] theorem onInteg_cofin (f : Integrity → Integrity) : (s.onInteg f).cofin = s.cofin := rfl
@[simp] theorem onInteg_job (f : Integrity → Integrity) : (s.onInteg f).job = s.job := rfl
@[simp] theorem onInteg_sealSt (f : Integrity → Integrity) : (s.onInteg f).sealSt = s.sealSt := rfl
@[simp] theorem onInteg_cores (f : Integrity → Integrity) : (s.onInteg f).cores = s.cores := rfl
@[simp] theorem onInteg_coreMap (f : Integrity → Integrity) : (s.onInteg f).coreMap = s.coreMap := rfl
@[simp] theorem onInteg_repairs (f : Integrity → Integrity) : (s.onInteg f).repairs = s.repairs := rfl
@[simp] theorem onInteg_hubs (f : Integrity → Integrity) : (s.onInteg f).hubs = s.hubs := rfl
@[simp] theorem onInteg_hbmStacks (f : Integrity → Integrity) : (s.onInteg f).hbmStacks = s.hbmStacks := rfl
@[simp] theorem onInteg_mem (f : Integrity → Integrity) : (s.onInteg f).mem = s.mem := rfl
@[simp] theorem onInteg_poison (f : Integrity → Integrity) : (s.onInteg f).poison = s.poison := rfl
@[simp] theorem onInteg_dir (f : Integrity → Integrity) : (s.onInteg f).dir = s.dir := rfl
@[simp] theorem onInteg_rowSplit (f : Integrity → Integrity) : (s.onInteg f).rowSplit = s.rowSplit := rfl
@[simp] theorem onInteg_links (f : Integrity → Integrity) : (s.onInteg f).links = s.links := rfl
@[simp] theorem onInteg_ports (f : Integrity → Integrity) : (s.onInteg f).ports = s.ports := rfl
@[simp] theorem onInteg_router (f : Integrity → Integrity) : (s.onInteg f).router = s.router := rfl
@[simp] theorem onInteg_gws (f : Integrity → Integrity) : (s.onInteg f).gws = s.gws := rfl
@[simp] theorem onInteg_survey (f : Integrity → Integrity) : (s.onInteg f).survey = s.survey := rfl
@[simp] theorem onInteg_topo (f : Integrity → Integrity) : (s.onInteg f).topo = s.topo := rfl
@[simp] theorem onInteg_power (f : Integrity → Integrity) : (s.onInteg f).power = s.power := rfl
@[simp] theorem onInteg_integ (f : Integrity → Integrity) : (s.onInteg f).integ = f s.integ := rfl
@[simp] theorem onInteg_dump (f : Integrity → Integrity) : (s.onInteg f).dump = s.dump := rfl
@[simp] theorem onInteg_sec (f : Integrity → Integrity) : (s.onInteg f).sec = s.sec := rfl
@[simp] theorem onInteg_mgmt (f : Integrity → Integrity) : (s.onInteg f).mgmt = s.mgmt := rfl
@[simp] theorem onInteg_free (f : Integrity → Integrity) : (s.onInteg f).free = s.free := rfl
@[simp] theorem onInteg_emitted (f : Integrity → Integrity) : (s.onInteg f).emitted = s.emitted := rfl
@[simp] theorem onInteg_pending (f : Integrity → Integrity) : (s.onInteg f).pending = s.pending := rfl

@[simp] theorem onDump_fuses (f : Dump → Dump) : (s.onDump f).fuses = s.fuses := rfl
@[simp] theorem onDump_dev (f : Dump → Dump) : (s.onDump f).dev = s.dev := rfl
@[simp] theorem onDump_clock (f : Dump → Dump) : (s.onDump f).clock = s.clock := rfl
@[simp] theorem onDump_mer (f : Dump → Dump) : (s.onDump f).mer = s.mer := rfl
@[simp] theorem onDump_log (f : Dump → Dump) : (s.onDump f).log = s.log := rfl
@[simp] theorem onDump_faults (f : Dump → Dump) : (s.onDump f).faults = s.faults := rfl
@[simp] theorem onDump_regs (f : Dump → Dump) : (s.onDump f).regs = s.regs := rfl
@[simp] theorem onDump_mboxes (f : Dump → Dump) : (s.onDump f).mboxes = s.mboxes := rfl
@[simp] theorem onDump_cofin (f : Dump → Dump) : (s.onDump f).cofin = s.cofin := rfl
@[simp] theorem onDump_job (f : Dump → Dump) : (s.onDump f).job = s.job := rfl
@[simp] theorem onDump_sealSt (f : Dump → Dump) : (s.onDump f).sealSt = s.sealSt := rfl
@[simp] theorem onDump_cores (f : Dump → Dump) : (s.onDump f).cores = s.cores := rfl
@[simp] theorem onDump_coreMap (f : Dump → Dump) : (s.onDump f).coreMap = s.coreMap := rfl
@[simp] theorem onDump_repairs (f : Dump → Dump) : (s.onDump f).repairs = s.repairs := rfl
@[simp] theorem onDump_hubs (f : Dump → Dump) : (s.onDump f).hubs = s.hubs := rfl
@[simp] theorem onDump_hbmStacks (f : Dump → Dump) : (s.onDump f).hbmStacks = s.hbmStacks := rfl
@[simp] theorem onDump_mem (f : Dump → Dump) : (s.onDump f).mem = s.mem := rfl
@[simp] theorem onDump_poison (f : Dump → Dump) : (s.onDump f).poison = s.poison := rfl
@[simp] theorem onDump_dir (f : Dump → Dump) : (s.onDump f).dir = s.dir := rfl
@[simp] theorem onDump_rowSplit (f : Dump → Dump) : (s.onDump f).rowSplit = s.rowSplit := rfl
@[simp] theorem onDump_links (f : Dump → Dump) : (s.onDump f).links = s.links := rfl
@[simp] theorem onDump_ports (f : Dump → Dump) : (s.onDump f).ports = s.ports := rfl
@[simp] theorem onDump_router (f : Dump → Dump) : (s.onDump f).router = s.router := rfl
@[simp] theorem onDump_gws (f : Dump → Dump) : (s.onDump f).gws = s.gws := rfl
@[simp] theorem onDump_survey (f : Dump → Dump) : (s.onDump f).survey = s.survey := rfl
@[simp] theorem onDump_topo (f : Dump → Dump) : (s.onDump f).topo = s.topo := rfl
@[simp] theorem onDump_power (f : Dump → Dump) : (s.onDump f).power = s.power := rfl
@[simp] theorem onDump_integ (f : Dump → Dump) : (s.onDump f).integ = s.integ := rfl
@[simp] theorem onDump_dump (f : Dump → Dump) : (s.onDump f).dump = f s.dump := rfl
@[simp] theorem onDump_sec (f : Dump → Dump) : (s.onDump f).sec = s.sec := rfl
@[simp] theorem onDump_mgmt (f : Dump → Dump) : (s.onDump f).mgmt = s.mgmt := rfl
@[simp] theorem onDump_free (f : Dump → Dump) : (s.onDump f).free = s.free := rfl
@[simp] theorem onDump_emitted (f : Dump → Dump) : (s.onDump f).emitted = s.emitted := rfl
@[simp] theorem onDump_pending (f : Dump → Dump) : (s.onDump f).pending = s.pending := rfl

@[simp] theorem onSec_fuses (f : Security → Security) : (s.onSec f).fuses = s.fuses := rfl
@[simp] theorem onSec_dev (f : Security → Security) : (s.onSec f).dev = s.dev := rfl
@[simp] theorem onSec_clock (f : Security → Security) : (s.onSec f).clock = s.clock := rfl
@[simp] theorem onSec_mer (f : Security → Security) : (s.onSec f).mer = s.mer := rfl
@[simp] theorem onSec_log (f : Security → Security) : (s.onSec f).log = s.log := rfl
@[simp] theorem onSec_faults (f : Security → Security) : (s.onSec f).faults = s.faults := rfl
@[simp] theorem onSec_regs (f : Security → Security) : (s.onSec f).regs = s.regs := rfl
@[simp] theorem onSec_mboxes (f : Security → Security) : (s.onSec f).mboxes = s.mboxes := rfl
@[simp] theorem onSec_cofin (f : Security → Security) : (s.onSec f).cofin = s.cofin := rfl
@[simp] theorem onSec_job (f : Security → Security) : (s.onSec f).job = s.job := rfl
@[simp] theorem onSec_sealSt (f : Security → Security) : (s.onSec f).sealSt = s.sealSt := rfl
@[simp] theorem onSec_cores (f : Security → Security) : (s.onSec f).cores = s.cores := rfl
@[simp] theorem onSec_coreMap (f : Security → Security) : (s.onSec f).coreMap = s.coreMap := rfl
@[simp] theorem onSec_repairs (f : Security → Security) : (s.onSec f).repairs = s.repairs := rfl
@[simp] theorem onSec_hubs (f : Security → Security) : (s.onSec f).hubs = s.hubs := rfl
@[simp] theorem onSec_hbmStacks (f : Security → Security) : (s.onSec f).hbmStacks = s.hbmStacks := rfl
@[simp] theorem onSec_mem (f : Security → Security) : (s.onSec f).mem = s.mem := rfl
@[simp] theorem onSec_poison (f : Security → Security) : (s.onSec f).poison = s.poison := rfl
@[simp] theorem onSec_dir (f : Security → Security) : (s.onSec f).dir = s.dir := rfl
@[simp] theorem onSec_rowSplit (f : Security → Security) : (s.onSec f).rowSplit = s.rowSplit := rfl
@[simp] theorem onSec_links (f : Security → Security) : (s.onSec f).links = s.links := rfl
@[simp] theorem onSec_ports (f : Security → Security) : (s.onSec f).ports = s.ports := rfl
@[simp] theorem onSec_router (f : Security → Security) : (s.onSec f).router = s.router := rfl
@[simp] theorem onSec_gws (f : Security → Security) : (s.onSec f).gws = s.gws := rfl
@[simp] theorem onSec_survey (f : Security → Security) : (s.onSec f).survey = s.survey := rfl
@[simp] theorem onSec_topo (f : Security → Security) : (s.onSec f).topo = s.topo := rfl
@[simp] theorem onSec_power (f : Security → Security) : (s.onSec f).power = s.power := rfl
@[simp] theorem onSec_integ (f : Security → Security) : (s.onSec f).integ = s.integ := rfl
@[simp] theorem onSec_dump (f : Security → Security) : (s.onSec f).dump = s.dump := rfl
@[simp] theorem onSec_sec (f : Security → Security) : (s.onSec f).sec = f s.sec := rfl
@[simp] theorem onSec_mgmt (f : Security → Security) : (s.onSec f).mgmt = s.mgmt := rfl
@[simp] theorem onSec_free (f : Security → Security) : (s.onSec f).free = s.free := rfl
@[simp] theorem onSec_emitted (f : Security → Security) : (s.onSec f).emitted = s.emitted := rfl
@[simp] theorem onSec_pending (f : Security → Security) : (s.onSec f).pending = s.pending := rfl

@[simp] theorem onMgmt_fuses (f : Mgmt → Mgmt) : (s.onMgmt f).fuses = s.fuses := rfl
@[simp] theorem onMgmt_dev (f : Mgmt → Mgmt) : (s.onMgmt f).dev = s.dev := rfl
@[simp] theorem onMgmt_clock (f : Mgmt → Mgmt) : (s.onMgmt f).clock = s.clock := rfl
@[simp] theorem onMgmt_mer (f : Mgmt → Mgmt) : (s.onMgmt f).mer = s.mer := rfl
@[simp] theorem onMgmt_log (f : Mgmt → Mgmt) : (s.onMgmt f).log = s.log := rfl
@[simp] theorem onMgmt_faults (f : Mgmt → Mgmt) : (s.onMgmt f).faults = s.faults := rfl
@[simp] theorem onMgmt_regs (f : Mgmt → Mgmt) : (s.onMgmt f).regs = s.regs := rfl
@[simp] theorem onMgmt_mboxes (f : Mgmt → Mgmt) : (s.onMgmt f).mboxes = s.mboxes := rfl
@[simp] theorem onMgmt_cofin (f : Mgmt → Mgmt) : (s.onMgmt f).cofin = s.cofin := rfl
@[simp] theorem onMgmt_job (f : Mgmt → Mgmt) : (s.onMgmt f).job = s.job := rfl
@[simp] theorem onMgmt_sealSt (f : Mgmt → Mgmt) : (s.onMgmt f).sealSt = s.sealSt := rfl
@[simp] theorem onMgmt_cores (f : Mgmt → Mgmt) : (s.onMgmt f).cores = s.cores := rfl
@[simp] theorem onMgmt_coreMap (f : Mgmt → Mgmt) : (s.onMgmt f).coreMap = s.coreMap := rfl
@[simp] theorem onMgmt_repairs (f : Mgmt → Mgmt) : (s.onMgmt f).repairs = s.repairs := rfl
@[simp] theorem onMgmt_hubs (f : Mgmt → Mgmt) : (s.onMgmt f).hubs = s.hubs := rfl
@[simp] theorem onMgmt_hbmStacks (f : Mgmt → Mgmt) : (s.onMgmt f).hbmStacks = s.hbmStacks := rfl
@[simp] theorem onMgmt_mem (f : Mgmt → Mgmt) : (s.onMgmt f).mem = s.mem := rfl
@[simp] theorem onMgmt_poison (f : Mgmt → Mgmt) : (s.onMgmt f).poison = s.poison := rfl
@[simp] theorem onMgmt_dir (f : Mgmt → Mgmt) : (s.onMgmt f).dir = s.dir := rfl
@[simp] theorem onMgmt_rowSplit (f : Mgmt → Mgmt) : (s.onMgmt f).rowSplit = s.rowSplit := rfl
@[simp] theorem onMgmt_links (f : Mgmt → Mgmt) : (s.onMgmt f).links = s.links := rfl
@[simp] theorem onMgmt_ports (f : Mgmt → Mgmt) : (s.onMgmt f).ports = s.ports := rfl
@[simp] theorem onMgmt_router (f : Mgmt → Mgmt) : (s.onMgmt f).router = s.router := rfl
@[simp] theorem onMgmt_gws (f : Mgmt → Mgmt) : (s.onMgmt f).gws = s.gws := rfl
@[simp] theorem onMgmt_survey (f : Mgmt → Mgmt) : (s.onMgmt f).survey = s.survey := rfl
@[simp] theorem onMgmt_topo (f : Mgmt → Mgmt) : (s.onMgmt f).topo = s.topo := rfl
@[simp] theorem onMgmt_power (f : Mgmt → Mgmt) : (s.onMgmt f).power = s.power := rfl
@[simp] theorem onMgmt_integ (f : Mgmt → Mgmt) : (s.onMgmt f).integ = s.integ := rfl
@[simp] theorem onMgmt_dump (f : Mgmt → Mgmt) : (s.onMgmt f).dump = s.dump := rfl
@[simp] theorem onMgmt_sec (f : Mgmt → Mgmt) : (s.onMgmt f).sec = s.sec := rfl
@[simp] theorem onMgmt_mgmt (f : Mgmt → Mgmt) : (s.onMgmt f).mgmt = f s.mgmt := rfl
@[simp] theorem onMgmt_free (f : Mgmt → Mgmt) : (s.onMgmt f).free = s.free := rfl
@[simp] theorem onMgmt_emitted (f : Mgmt → Mgmt) : (s.onMgmt f).emitted = s.emitted := rfl
@[simp] theorem onMgmt_pending (f : Mgmt → Mgmt) : (s.onMgmt f).pending = s.pending := rfl

@[simp] theorem onFree_fuses (f : Nat → Nat) : (s.onFree f).fuses = s.fuses := rfl
@[simp] theorem onFree_dev (f : Nat → Nat) : (s.onFree f).dev = s.dev := rfl
@[simp] theorem onFree_clock (f : Nat → Nat) : (s.onFree f).clock = s.clock := rfl
@[simp] theorem onFree_mer (f : Nat → Nat) : (s.onFree f).mer = s.mer := rfl
@[simp] theorem onFree_log (f : Nat → Nat) : (s.onFree f).log = s.log := rfl
@[simp] theorem onFree_faults (f : Nat → Nat) : (s.onFree f).faults = s.faults := rfl
@[simp] theorem onFree_regs (f : Nat → Nat) : (s.onFree f).regs = s.regs := rfl
@[simp] theorem onFree_mboxes (f : Nat → Nat) : (s.onFree f).mboxes = s.mboxes := rfl
@[simp] theorem onFree_cofin (f : Nat → Nat) : (s.onFree f).cofin = s.cofin := rfl
@[simp] theorem onFree_job (f : Nat → Nat) : (s.onFree f).job = s.job := rfl
@[simp] theorem onFree_sealSt (f : Nat → Nat) : (s.onFree f).sealSt = s.sealSt := rfl
@[simp] theorem onFree_cores (f : Nat → Nat) : (s.onFree f).cores = s.cores := rfl
@[simp] theorem onFree_coreMap (f : Nat → Nat) : (s.onFree f).coreMap = s.coreMap := rfl
@[simp] theorem onFree_repairs (f : Nat → Nat) : (s.onFree f).repairs = s.repairs := rfl
@[simp] theorem onFree_hubs (f : Nat → Nat) : (s.onFree f).hubs = s.hubs := rfl
@[simp] theorem onFree_hbmStacks (f : Nat → Nat) : (s.onFree f).hbmStacks = s.hbmStacks := rfl
@[simp] theorem onFree_mem (f : Nat → Nat) : (s.onFree f).mem = s.mem := rfl
@[simp] theorem onFree_poison (f : Nat → Nat) : (s.onFree f).poison = s.poison := rfl
@[simp] theorem onFree_dir (f : Nat → Nat) : (s.onFree f).dir = s.dir := rfl
@[simp] theorem onFree_rowSplit (f : Nat → Nat) : (s.onFree f).rowSplit = s.rowSplit := rfl
@[simp] theorem onFree_links (f : Nat → Nat) : (s.onFree f).links = s.links := rfl
@[simp] theorem onFree_ports (f : Nat → Nat) : (s.onFree f).ports = s.ports := rfl
@[simp] theorem onFree_router (f : Nat → Nat) : (s.onFree f).router = s.router := rfl
@[simp] theorem onFree_gws (f : Nat → Nat) : (s.onFree f).gws = s.gws := rfl
@[simp] theorem onFree_survey (f : Nat → Nat) : (s.onFree f).survey = s.survey := rfl
@[simp] theorem onFree_topo (f : Nat → Nat) : (s.onFree f).topo = s.topo := rfl
@[simp] theorem onFree_power (f : Nat → Nat) : (s.onFree f).power = s.power := rfl
@[simp] theorem onFree_integ (f : Nat → Nat) : (s.onFree f).integ = s.integ := rfl
@[simp] theorem onFree_dump (f : Nat → Nat) : (s.onFree f).dump = s.dump := rfl
@[simp] theorem onFree_sec (f : Nat → Nat) : (s.onFree f).sec = s.sec := rfl
@[simp] theorem onFree_mgmt (f : Nat → Nat) : (s.onFree f).mgmt = s.mgmt := rfl
@[simp] theorem onFree_free (f : Nat → Nat) : (s.onFree f).free = f s.free := rfl
@[simp] theorem onFree_emitted (f : Nat → Nat) : (s.onFree f).emitted = s.emitted := rfl
@[simp] theorem onFree_pending (f : Nat → Nat) : (s.onFree f).pending = s.pending := rfl

@[simp] theorem onEmitted_fuses (f : List Emission → List Emission) : (s.onEmitted f).fuses = s.fuses := rfl
@[simp] theorem onEmitted_dev (f : List Emission → List Emission) : (s.onEmitted f).dev = s.dev := rfl
@[simp] theorem onEmitted_clock (f : List Emission → List Emission) : (s.onEmitted f).clock = s.clock := rfl
@[simp] theorem onEmitted_mer (f : List Emission → List Emission) : (s.onEmitted f).mer = s.mer := rfl
@[simp] theorem onEmitted_log (f : List Emission → List Emission) : (s.onEmitted f).log = s.log := rfl
@[simp] theorem onEmitted_faults (f : List Emission → List Emission) : (s.onEmitted f).faults = s.faults := rfl
@[simp] theorem onEmitted_regs (f : List Emission → List Emission) : (s.onEmitted f).regs = s.regs := rfl
@[simp] theorem onEmitted_mboxes (f : List Emission → List Emission) : (s.onEmitted f).mboxes = s.mboxes := rfl
@[simp] theorem onEmitted_cofin (f : List Emission → List Emission) : (s.onEmitted f).cofin = s.cofin := rfl
@[simp] theorem onEmitted_job (f : List Emission → List Emission) : (s.onEmitted f).job = s.job := rfl
@[simp] theorem onEmitted_sealSt (f : List Emission → List Emission) : (s.onEmitted f).sealSt = s.sealSt := rfl
@[simp] theorem onEmitted_cores (f : List Emission → List Emission) : (s.onEmitted f).cores = s.cores := rfl
@[simp] theorem onEmitted_coreMap (f : List Emission → List Emission) : (s.onEmitted f).coreMap = s.coreMap := rfl
@[simp] theorem onEmitted_repairs (f : List Emission → List Emission) : (s.onEmitted f).repairs = s.repairs := rfl
@[simp] theorem onEmitted_hubs (f : List Emission → List Emission) : (s.onEmitted f).hubs = s.hubs := rfl
@[simp] theorem onEmitted_hbmStacks (f : List Emission → List Emission) : (s.onEmitted f).hbmStacks = s.hbmStacks := rfl
@[simp] theorem onEmitted_mem (f : List Emission → List Emission) : (s.onEmitted f).mem = s.mem := rfl
@[simp] theorem onEmitted_poison (f : List Emission → List Emission) : (s.onEmitted f).poison = s.poison := rfl
@[simp] theorem onEmitted_dir (f : List Emission → List Emission) : (s.onEmitted f).dir = s.dir := rfl
@[simp] theorem onEmitted_rowSplit (f : List Emission → List Emission) : (s.onEmitted f).rowSplit = s.rowSplit := rfl
@[simp] theorem onEmitted_links (f : List Emission → List Emission) : (s.onEmitted f).links = s.links := rfl
@[simp] theorem onEmitted_ports (f : List Emission → List Emission) : (s.onEmitted f).ports = s.ports := rfl
@[simp] theorem onEmitted_router (f : List Emission → List Emission) : (s.onEmitted f).router = s.router := rfl
@[simp] theorem onEmitted_gws (f : List Emission → List Emission) : (s.onEmitted f).gws = s.gws := rfl
@[simp] theorem onEmitted_survey (f : List Emission → List Emission) : (s.onEmitted f).survey = s.survey := rfl
@[simp] theorem onEmitted_topo (f : List Emission → List Emission) : (s.onEmitted f).topo = s.topo := rfl
@[simp] theorem onEmitted_power (f : List Emission → List Emission) : (s.onEmitted f).power = s.power := rfl
@[simp] theorem onEmitted_integ (f : List Emission → List Emission) : (s.onEmitted f).integ = s.integ := rfl
@[simp] theorem onEmitted_dump (f : List Emission → List Emission) : (s.onEmitted f).dump = s.dump := rfl
@[simp] theorem onEmitted_sec (f : List Emission → List Emission) : (s.onEmitted f).sec = s.sec := rfl
@[simp] theorem onEmitted_mgmt (f : List Emission → List Emission) : (s.onEmitted f).mgmt = s.mgmt := rfl
@[simp] theorem onEmitted_free (f : List Emission → List Emission) : (s.onEmitted f).free = s.free := rfl
@[simp] theorem onEmitted_emitted (f : List Emission → List Emission) : (s.onEmitted f).emitted = f s.emitted := rfl
@[simp] theorem onEmitted_pending (f : List Emission → List Emission) : (s.onEmitted f).pending = s.pending := rfl

@[simp] theorem committed_fuses (t : State) : (committed s t).fuses = s.fuses := rfl
@[simp] theorem committed_dev (t : State) : (committed s t).dev = t.dev := rfl
@[simp] theorem committed_clock (t : State) : (committed s t).clock = t.clock := rfl
@[simp] theorem committed_mer (t : State) : (committed s t).mer = t.mer := rfl
@[simp] theorem committed_log (t : State) : (committed s t).log = t.log := rfl
@[simp] theorem committed_faults (t : State) : (committed s t).faults = t.faults := rfl
@[simp] theorem committed_regs (t : State) : (committed s t).regs = t.regs := rfl
@[simp] theorem committed_mboxes (t : State) : (committed s t).mboxes = t.mboxes := rfl
@[simp] theorem committed_cofin (t : State) : (committed s t).cofin = t.cofin := rfl
@[simp] theorem committed_job (t : State) : (committed s t).job = t.job := rfl
@[simp] theorem committed_sealSt (t : State) : (committed s t).sealSt = t.sealSt := rfl
@[simp] theorem committed_cores (t : State) : (committed s t).cores = t.cores := rfl
@[simp] theorem committed_coreMap (t : State) : (committed s t).coreMap = t.coreMap := rfl
@[simp] theorem committed_repairs (t : State) : (committed s t).repairs = t.repairs := rfl
@[simp] theorem committed_hubs (t : State) : (committed s t).hubs = t.hubs := rfl
@[simp] theorem committed_hbmStacks (t : State) : (committed s t).hbmStacks = t.hbmStacks := rfl
@[simp] theorem committed_mem (t : State) : (committed s t).mem = t.mem := rfl
@[simp] theorem committed_poison (t : State) : (committed s t).poison = t.poison := rfl
@[simp] theorem committed_dir (t : State) : (committed s t).dir = t.dir := rfl
@[simp] theorem committed_rowSplit (t : State) : (committed s t).rowSplit = t.rowSplit := rfl
@[simp] theorem committed_links (t : State) : (committed s t).links = t.links := rfl
@[simp] theorem committed_ports (t : State) : (committed s t).ports = t.ports := rfl
@[simp] theorem committed_router (t : State) : (committed s t).router = t.router := rfl
@[simp] theorem committed_gws (t : State) : (committed s t).gws = t.gws := rfl
@[simp] theorem committed_survey (t : State) : (committed s t).survey = t.survey := rfl
@[simp] theorem committed_topo (t : State) : (committed s t).topo = t.topo := rfl
@[simp] theorem committed_power (t : State) : (committed s t).power = t.power := rfl
@[simp] theorem committed_integ (t : State) : (committed s t).integ = t.integ := rfl
@[simp] theorem committed_dump (t : State) : (committed s t).dump = t.dump := rfl
@[simp] theorem committed_sec (t : State) : (committed s t).sec = t.sec := rfl
@[simp] theorem committed_mgmt (t : State) : (committed s t).mgmt = t.mgmt := rfl
@[simp] theorem committed_free (t : State) : (committed s t).free = t.free := rfl
@[simp] theorem committed_emitted (t : State) : (committed s t).emitted = t.emitted := rfl
@[simp] theorem committed_pending (t : State) : (committed s t).pending = s.pending := rfl

@[simp] theorem onMbox_fuses (i : Nat) (f : Mailbox → Mailbox) : (s.onMbox i f).fuses = s.fuses := rfl
@[simp] theorem onMbox_dev (i : Nat) (f : Mailbox → Mailbox) : (s.onMbox i f).dev = s.dev := rfl
@[simp] theorem onMbox_clock (i : Nat) (f : Mailbox → Mailbox) : (s.onMbox i f).clock = s.clock := rfl
@[simp] theorem onMbox_mer (i : Nat) (f : Mailbox → Mailbox) : (s.onMbox i f).mer = s.mer := rfl
@[simp] theorem onMbox_log (i : Nat) (f : Mailbox → Mailbox) : (s.onMbox i f).log = s.log := rfl
@[simp] theorem onMbox_faults (i : Nat) (f : Mailbox → Mailbox) : (s.onMbox i f).faults = s.faults := rfl
@[simp] theorem onMbox_regs (i : Nat) (f : Mailbox → Mailbox) : (s.onMbox i f).regs = s.regs := rfl
@[simp] theorem onMbox_mboxes (i : Nat) (f : Mailbox → Mailbox) : (s.onMbox i f).mboxes = Tab.modify {} i f s.mboxes := rfl
@[simp] theorem onMbox_cofin (i : Nat) (f : Mailbox → Mailbox) : (s.onMbox i f).cofin = s.cofin := rfl
@[simp] theorem onMbox_job (i : Nat) (f : Mailbox → Mailbox) : (s.onMbox i f).job = s.job := rfl
@[simp] theorem onMbox_sealSt (i : Nat) (f : Mailbox → Mailbox) : (s.onMbox i f).sealSt = s.sealSt := rfl
@[simp] theorem onMbox_cores (i : Nat) (f : Mailbox → Mailbox) : (s.onMbox i f).cores = s.cores := rfl
@[simp] theorem onMbox_coreMap (i : Nat) (f : Mailbox → Mailbox) : (s.onMbox i f).coreMap = s.coreMap := rfl
@[simp] theorem onMbox_repairs (i : Nat) (f : Mailbox → Mailbox) : (s.onMbox i f).repairs = s.repairs := rfl
@[simp] theorem onMbox_hubs (i : Nat) (f : Mailbox → Mailbox) : (s.onMbox i f).hubs = s.hubs := rfl
@[simp] theorem onMbox_hbmStacks (i : Nat) (f : Mailbox → Mailbox) : (s.onMbox i f).hbmStacks = s.hbmStacks := rfl
@[simp] theorem onMbox_mem (i : Nat) (f : Mailbox → Mailbox) : (s.onMbox i f).mem = s.mem := rfl
@[simp] theorem onMbox_poison (i : Nat) (f : Mailbox → Mailbox) : (s.onMbox i f).poison = s.poison := rfl
@[simp] theorem onMbox_dir (i : Nat) (f : Mailbox → Mailbox) : (s.onMbox i f).dir = s.dir := rfl
@[simp] theorem onMbox_rowSplit (i : Nat) (f : Mailbox → Mailbox) : (s.onMbox i f).rowSplit = s.rowSplit := rfl
@[simp] theorem onMbox_links (i : Nat) (f : Mailbox → Mailbox) : (s.onMbox i f).links = s.links := rfl
@[simp] theorem onMbox_ports (i : Nat) (f : Mailbox → Mailbox) : (s.onMbox i f).ports = s.ports := rfl
@[simp] theorem onMbox_router (i : Nat) (f : Mailbox → Mailbox) : (s.onMbox i f).router = s.router := rfl
@[simp] theorem onMbox_gws (i : Nat) (f : Mailbox → Mailbox) : (s.onMbox i f).gws = s.gws := rfl
@[simp] theorem onMbox_survey (i : Nat) (f : Mailbox → Mailbox) : (s.onMbox i f).survey = s.survey := rfl
@[simp] theorem onMbox_topo (i : Nat) (f : Mailbox → Mailbox) : (s.onMbox i f).topo = s.topo := rfl
@[simp] theorem onMbox_power (i : Nat) (f : Mailbox → Mailbox) : (s.onMbox i f).power = s.power := rfl
@[simp] theorem onMbox_integ (i : Nat) (f : Mailbox → Mailbox) : (s.onMbox i f).integ = s.integ := rfl
@[simp] theorem onMbox_dump (i : Nat) (f : Mailbox → Mailbox) : (s.onMbox i f).dump = s.dump := rfl
@[simp] theorem onMbox_sec (i : Nat) (f : Mailbox → Mailbox) : (s.onMbox i f).sec = s.sec := rfl
@[simp] theorem onMbox_mgmt (i : Nat) (f : Mailbox → Mailbox) : (s.onMbox i f).mgmt = s.mgmt := rfl
@[simp] theorem onMbox_free (i : Nat) (f : Mailbox → Mailbox) : (s.onMbox i f).free = s.free := rfl
@[simp] theorem onMbox_emitted (i : Nat) (f : Mailbox → Mailbox) : (s.onMbox i f).emitted = s.emitted := rfl
@[simp] theorem onMbox_pending (i : Nat) (f : Mailbox → Mailbox) : (s.onMbox i f).pending = s.pending := rfl

@[simp] theorem onCore_fuses (i : Nat) (f : Core → Core) : (s.onCore i f).fuses = s.fuses := rfl
@[simp] theorem onCore_dev (i : Nat) (f : Core → Core) : (s.onCore i f).dev = s.dev := rfl
@[simp] theorem onCore_clock (i : Nat) (f : Core → Core) : (s.onCore i f).clock = s.clock := rfl
@[simp] theorem onCore_mer (i : Nat) (f : Core → Core) : (s.onCore i f).mer = s.mer := rfl
@[simp] theorem onCore_log (i : Nat) (f : Core → Core) : (s.onCore i f).log = s.log := rfl
@[simp] theorem onCore_faults (i : Nat) (f : Core → Core) : (s.onCore i f).faults = s.faults := rfl
@[simp] theorem onCore_regs (i : Nat) (f : Core → Core) : (s.onCore i f).regs = s.regs := rfl
@[simp] theorem onCore_mboxes (i : Nat) (f : Core → Core) : (s.onCore i f).mboxes = s.mboxes := rfl
@[simp] theorem onCore_cofin (i : Nat) (f : Core → Core) : (s.onCore i f).cofin = s.cofin := rfl
@[simp] theorem onCore_job (i : Nat) (f : Core → Core) : (s.onCore i f).job = s.job := rfl
@[simp] theorem onCore_sealSt (i : Nat) (f : Core → Core) : (s.onCore i f).sealSt = s.sealSt := rfl
@[simp] theorem onCore_cores (i : Nat) (f : Core → Core) : (s.onCore i f).cores = Tab.modify {} i f s.cores := rfl
@[simp] theorem onCore_coreMap (i : Nat) (f : Core → Core) : (s.onCore i f).coreMap = s.coreMap := rfl
@[simp] theorem onCore_repairs (i : Nat) (f : Core → Core) : (s.onCore i f).repairs = s.repairs := rfl
@[simp] theorem onCore_hubs (i : Nat) (f : Core → Core) : (s.onCore i f).hubs = s.hubs := rfl
@[simp] theorem onCore_hbmStacks (i : Nat) (f : Core → Core) : (s.onCore i f).hbmStacks = s.hbmStacks := rfl
@[simp] theorem onCore_mem (i : Nat) (f : Core → Core) : (s.onCore i f).mem = s.mem := rfl
@[simp] theorem onCore_poison (i : Nat) (f : Core → Core) : (s.onCore i f).poison = s.poison := rfl
@[simp] theorem onCore_dir (i : Nat) (f : Core → Core) : (s.onCore i f).dir = s.dir := rfl
@[simp] theorem onCore_rowSplit (i : Nat) (f : Core → Core) : (s.onCore i f).rowSplit = s.rowSplit := rfl
@[simp] theorem onCore_links (i : Nat) (f : Core → Core) : (s.onCore i f).links = s.links := rfl
@[simp] theorem onCore_ports (i : Nat) (f : Core → Core) : (s.onCore i f).ports = s.ports := rfl
@[simp] theorem onCore_router (i : Nat) (f : Core → Core) : (s.onCore i f).router = s.router := rfl
@[simp] theorem onCore_gws (i : Nat) (f : Core → Core) : (s.onCore i f).gws = s.gws := rfl
@[simp] theorem onCore_survey (i : Nat) (f : Core → Core) : (s.onCore i f).survey = s.survey := rfl
@[simp] theorem onCore_topo (i : Nat) (f : Core → Core) : (s.onCore i f).topo = s.topo := rfl
@[simp] theorem onCore_power (i : Nat) (f : Core → Core) : (s.onCore i f).power = s.power := rfl
@[simp] theorem onCore_integ (i : Nat) (f : Core → Core) : (s.onCore i f).integ = s.integ := rfl
@[simp] theorem onCore_dump (i : Nat) (f : Core → Core) : (s.onCore i f).dump = s.dump := rfl
@[simp] theorem onCore_sec (i : Nat) (f : Core → Core) : (s.onCore i f).sec = s.sec := rfl
@[simp] theorem onCore_mgmt (i : Nat) (f : Core → Core) : (s.onCore i f).mgmt = s.mgmt := rfl
@[simp] theorem onCore_free (i : Nat) (f : Core → Core) : (s.onCore i f).free = s.free := rfl
@[simp] theorem onCore_emitted (i : Nat) (f : Core → Core) : (s.onCore i f).emitted = s.emitted := rfl
@[simp] theorem onCore_pending (i : Nat) (f : Core → Core) : (s.onCore i f).pending = s.pending := rfl

@[simp] theorem onHub_fuses (i : Nat) (f : Hub → Hub) : (s.onHub i f).fuses = s.fuses := rfl
@[simp] theorem onHub_dev (i : Nat) (f : Hub → Hub) : (s.onHub i f).dev = s.dev := rfl
@[simp] theorem onHub_clock (i : Nat) (f : Hub → Hub) : (s.onHub i f).clock = s.clock := rfl
@[simp] theorem onHub_mer (i : Nat) (f : Hub → Hub) : (s.onHub i f).mer = s.mer := rfl
@[simp] theorem onHub_log (i : Nat) (f : Hub → Hub) : (s.onHub i f).log = s.log := rfl
@[simp] theorem onHub_faults (i : Nat) (f : Hub → Hub) : (s.onHub i f).faults = s.faults := rfl
@[simp] theorem onHub_regs (i : Nat) (f : Hub → Hub) : (s.onHub i f).regs = s.regs := rfl
@[simp] theorem onHub_mboxes (i : Nat) (f : Hub → Hub) : (s.onHub i f).mboxes = s.mboxes := rfl
@[simp] theorem onHub_cofin (i : Nat) (f : Hub → Hub) : (s.onHub i f).cofin = s.cofin := rfl
@[simp] theorem onHub_job (i : Nat) (f : Hub → Hub) : (s.onHub i f).job = s.job := rfl
@[simp] theorem onHub_sealSt (i : Nat) (f : Hub → Hub) : (s.onHub i f).sealSt = s.sealSt := rfl
@[simp] theorem onHub_cores (i : Nat) (f : Hub → Hub) : (s.onHub i f).cores = s.cores := rfl
@[simp] theorem onHub_coreMap (i : Nat) (f : Hub → Hub) : (s.onHub i f).coreMap = s.coreMap := rfl
@[simp] theorem onHub_repairs (i : Nat) (f : Hub → Hub) : (s.onHub i f).repairs = s.repairs := rfl
@[simp] theorem onHub_hubs (i : Nat) (f : Hub → Hub) : (s.onHub i f).hubs = Tab.modify {} i f s.hubs := rfl
@[simp] theorem onHub_hbmStacks (i : Nat) (f : Hub → Hub) : (s.onHub i f).hbmStacks = s.hbmStacks := rfl
@[simp] theorem onHub_mem (i : Nat) (f : Hub → Hub) : (s.onHub i f).mem = s.mem := rfl
@[simp] theorem onHub_poison (i : Nat) (f : Hub → Hub) : (s.onHub i f).poison = s.poison := rfl
@[simp] theorem onHub_dir (i : Nat) (f : Hub → Hub) : (s.onHub i f).dir = s.dir := rfl
@[simp] theorem onHub_rowSplit (i : Nat) (f : Hub → Hub) : (s.onHub i f).rowSplit = s.rowSplit := rfl
@[simp] theorem onHub_links (i : Nat) (f : Hub → Hub) : (s.onHub i f).links = s.links := rfl
@[simp] theorem onHub_ports (i : Nat) (f : Hub → Hub) : (s.onHub i f).ports = s.ports := rfl
@[simp] theorem onHub_router (i : Nat) (f : Hub → Hub) : (s.onHub i f).router = s.router := rfl
@[simp] theorem onHub_gws (i : Nat) (f : Hub → Hub) : (s.onHub i f).gws = s.gws := rfl
@[simp] theorem onHub_survey (i : Nat) (f : Hub → Hub) : (s.onHub i f).survey = s.survey := rfl
@[simp] theorem onHub_topo (i : Nat) (f : Hub → Hub) : (s.onHub i f).topo = s.topo := rfl
@[simp] theorem onHub_power (i : Nat) (f : Hub → Hub) : (s.onHub i f).power = s.power := rfl
@[simp] theorem onHub_integ (i : Nat) (f : Hub → Hub) : (s.onHub i f).integ = s.integ := rfl
@[simp] theorem onHub_dump (i : Nat) (f : Hub → Hub) : (s.onHub i f).dump = s.dump := rfl
@[simp] theorem onHub_sec (i : Nat) (f : Hub → Hub) : (s.onHub i f).sec = s.sec := rfl
@[simp] theorem onHub_mgmt (i : Nat) (f : Hub → Hub) : (s.onHub i f).mgmt = s.mgmt := rfl
@[simp] theorem onHub_free (i : Nat) (f : Hub → Hub) : (s.onHub i f).free = s.free := rfl
@[simp] theorem onHub_emitted (i : Nat) (f : Hub → Hub) : (s.onHub i f).emitted = s.emitted := rfl
@[simp] theorem onHub_pending (i : Nat) (f : Hub → Hub) : (s.onHub i f).pending = s.pending := rfl

@[simp] theorem onStack_fuses (i : Nat) (f : Stack → Stack) : (s.onStack i f).fuses = s.fuses := rfl
@[simp] theorem onStack_dev (i : Nat) (f : Stack → Stack) : (s.onStack i f).dev = s.dev := rfl
@[simp] theorem onStack_clock (i : Nat) (f : Stack → Stack) : (s.onStack i f).clock = s.clock := rfl
@[simp] theorem onStack_mer (i : Nat) (f : Stack → Stack) : (s.onStack i f).mer = s.mer := rfl
@[simp] theorem onStack_log (i : Nat) (f : Stack → Stack) : (s.onStack i f).log = s.log := rfl
@[simp] theorem onStack_faults (i : Nat) (f : Stack → Stack) : (s.onStack i f).faults = s.faults := rfl
@[simp] theorem onStack_regs (i : Nat) (f : Stack → Stack) : (s.onStack i f).regs = s.regs := rfl
@[simp] theorem onStack_mboxes (i : Nat) (f : Stack → Stack) : (s.onStack i f).mboxes = s.mboxes := rfl
@[simp] theorem onStack_cofin (i : Nat) (f : Stack → Stack) : (s.onStack i f).cofin = s.cofin := rfl
@[simp] theorem onStack_job (i : Nat) (f : Stack → Stack) : (s.onStack i f).job = s.job := rfl
@[simp] theorem onStack_sealSt (i : Nat) (f : Stack → Stack) : (s.onStack i f).sealSt = s.sealSt := rfl
@[simp] theorem onStack_cores (i : Nat) (f : Stack → Stack) : (s.onStack i f).cores = s.cores := rfl
@[simp] theorem onStack_coreMap (i : Nat) (f : Stack → Stack) : (s.onStack i f).coreMap = s.coreMap := rfl
@[simp] theorem onStack_repairs (i : Nat) (f : Stack → Stack) : (s.onStack i f).repairs = s.repairs := rfl
@[simp] theorem onStack_hubs (i : Nat) (f : Stack → Stack) : (s.onStack i f).hubs = s.hubs := rfl
@[simp] theorem onStack_hbmStacks (i : Nat) (f : Stack → Stack) : (s.onStack i f).hbmStacks = Tab.modify {} i f s.hbmStacks := rfl
@[simp] theorem onStack_mem (i : Nat) (f : Stack → Stack) : (s.onStack i f).mem = s.mem := rfl
@[simp] theorem onStack_poison (i : Nat) (f : Stack → Stack) : (s.onStack i f).poison = s.poison := rfl
@[simp] theorem onStack_dir (i : Nat) (f : Stack → Stack) : (s.onStack i f).dir = s.dir := rfl
@[simp] theorem onStack_rowSplit (i : Nat) (f : Stack → Stack) : (s.onStack i f).rowSplit = s.rowSplit := rfl
@[simp] theorem onStack_links (i : Nat) (f : Stack → Stack) : (s.onStack i f).links = s.links := rfl
@[simp] theorem onStack_ports (i : Nat) (f : Stack → Stack) : (s.onStack i f).ports = s.ports := rfl
@[simp] theorem onStack_router (i : Nat) (f : Stack → Stack) : (s.onStack i f).router = s.router := rfl
@[simp] theorem onStack_gws (i : Nat) (f : Stack → Stack) : (s.onStack i f).gws = s.gws := rfl
@[simp] theorem onStack_survey (i : Nat) (f : Stack → Stack) : (s.onStack i f).survey = s.survey := rfl
@[simp] theorem onStack_topo (i : Nat) (f : Stack → Stack) : (s.onStack i f).topo = s.topo := rfl
@[simp] theorem onStack_power (i : Nat) (f : Stack → Stack) : (s.onStack i f).power = s.power := rfl
@[simp] theorem onStack_integ (i : Nat) (f : Stack → Stack) : (s.onStack i f).integ = s.integ := rfl
@[simp] theorem onStack_dump (i : Nat) (f : Stack → Stack) : (s.onStack i f).dump = s.dump := rfl
@[simp] theorem onStack_sec (i : Nat) (f : Stack → Stack) : (s.onStack i f).sec = s.sec := rfl
@[simp] theorem onStack_mgmt (i : Nat) (f : Stack → Stack) : (s.onStack i f).mgmt = s.mgmt := rfl
@[simp] theorem onStack_free (i : Nat) (f : Stack → Stack) : (s.onStack i f).free = s.free := rfl
@[simp] theorem onStack_emitted (i : Nat) (f : Stack → Stack) : (s.onStack i f).emitted = s.emitted := rfl
@[simp] theorem onStack_pending (i : Nat) (f : Stack → Stack) : (s.onStack i f).pending = s.pending := rfl

@[simp] theorem onLink_fuses (i : Nat) (f : Link → Link) : (s.onLink i f).fuses = s.fuses := rfl
@[simp] theorem onLink_dev (i : Nat) (f : Link → Link) : (s.onLink i f).dev = s.dev := rfl
@[simp] theorem onLink_clock (i : Nat) (f : Link → Link) : (s.onLink i f).clock = s.clock := rfl
@[simp] theorem onLink_mer (i : Nat) (f : Link → Link) : (s.onLink i f).mer = s.mer := rfl
@[simp] theorem onLink_log (i : Nat) (f : Link → Link) : (s.onLink i f).log = s.log := rfl
@[simp] theorem onLink_faults (i : Nat) (f : Link → Link) : (s.onLink i f).faults = s.faults := rfl
@[simp] theorem onLink_regs (i : Nat) (f : Link → Link) : (s.onLink i f).regs = s.regs := rfl
@[simp] theorem onLink_mboxes (i : Nat) (f : Link → Link) : (s.onLink i f).mboxes = s.mboxes := rfl
@[simp] theorem onLink_cofin (i : Nat) (f : Link → Link) : (s.onLink i f).cofin = s.cofin := rfl
@[simp] theorem onLink_job (i : Nat) (f : Link → Link) : (s.onLink i f).job = s.job := rfl
@[simp] theorem onLink_sealSt (i : Nat) (f : Link → Link) : (s.onLink i f).sealSt = s.sealSt := rfl
@[simp] theorem onLink_cores (i : Nat) (f : Link → Link) : (s.onLink i f).cores = s.cores := rfl
@[simp] theorem onLink_coreMap (i : Nat) (f : Link → Link) : (s.onLink i f).coreMap = s.coreMap := rfl
@[simp] theorem onLink_repairs (i : Nat) (f : Link → Link) : (s.onLink i f).repairs = s.repairs := rfl
@[simp] theorem onLink_hubs (i : Nat) (f : Link → Link) : (s.onLink i f).hubs = s.hubs := rfl
@[simp] theorem onLink_hbmStacks (i : Nat) (f : Link → Link) : (s.onLink i f).hbmStacks = s.hbmStacks := rfl
@[simp] theorem onLink_mem (i : Nat) (f : Link → Link) : (s.onLink i f).mem = s.mem := rfl
@[simp] theorem onLink_poison (i : Nat) (f : Link → Link) : (s.onLink i f).poison = s.poison := rfl
@[simp] theorem onLink_dir (i : Nat) (f : Link → Link) : (s.onLink i f).dir = s.dir := rfl
@[simp] theorem onLink_rowSplit (i : Nat) (f : Link → Link) : (s.onLink i f).rowSplit = s.rowSplit := rfl
@[simp] theorem onLink_links (i : Nat) (f : Link → Link) : (s.onLink i f).links = Tab.modify {} i f s.links := rfl
@[simp] theorem onLink_ports (i : Nat) (f : Link → Link) : (s.onLink i f).ports = s.ports := rfl
@[simp] theorem onLink_router (i : Nat) (f : Link → Link) : (s.onLink i f).router = s.router := rfl
@[simp] theorem onLink_gws (i : Nat) (f : Link → Link) : (s.onLink i f).gws = s.gws := rfl
@[simp] theorem onLink_survey (i : Nat) (f : Link → Link) : (s.onLink i f).survey = s.survey := rfl
@[simp] theorem onLink_topo (i : Nat) (f : Link → Link) : (s.onLink i f).topo = s.topo := rfl
@[simp] theorem onLink_power (i : Nat) (f : Link → Link) : (s.onLink i f).power = s.power := rfl
@[simp] theorem onLink_integ (i : Nat) (f : Link → Link) : (s.onLink i f).integ = s.integ := rfl
@[simp] theorem onLink_dump (i : Nat) (f : Link → Link) : (s.onLink i f).dump = s.dump := rfl
@[simp] theorem onLink_sec (i : Nat) (f : Link → Link) : (s.onLink i f).sec = s.sec := rfl
@[simp] theorem onLink_mgmt (i : Nat) (f : Link → Link) : (s.onLink i f).mgmt = s.mgmt := rfl
@[simp] theorem onLink_free (i : Nat) (f : Link → Link) : (s.onLink i f).free = s.free := rfl
@[simp] theorem onLink_emitted (i : Nat) (f : Link → Link) : (s.onLink i f).emitted = s.emitted := rfl
@[simp] theorem onLink_pending (i : Nat) (f : Link → Link) : (s.onLink i f).pending = s.pending := rfl

@[simp] theorem onPort_fuses (i : Nat) (f : Port → Port) : (s.onPort i f).fuses = s.fuses := rfl
@[simp] theorem onPort_dev (i : Nat) (f : Port → Port) : (s.onPort i f).dev = s.dev := rfl
@[simp] theorem onPort_clock (i : Nat) (f : Port → Port) : (s.onPort i f).clock = s.clock := rfl
@[simp] theorem onPort_mer (i : Nat) (f : Port → Port) : (s.onPort i f).mer = s.mer := rfl
@[simp] theorem onPort_log (i : Nat) (f : Port → Port) : (s.onPort i f).log = s.log := rfl
@[simp] theorem onPort_faults (i : Nat) (f : Port → Port) : (s.onPort i f).faults = s.faults := rfl
@[simp] theorem onPort_regs (i : Nat) (f : Port → Port) : (s.onPort i f).regs = s.regs := rfl
@[simp] theorem onPort_mboxes (i : Nat) (f : Port → Port) : (s.onPort i f).mboxes = s.mboxes := rfl
@[simp] theorem onPort_cofin (i : Nat) (f : Port → Port) : (s.onPort i f).cofin = s.cofin := rfl
@[simp] theorem onPort_job (i : Nat) (f : Port → Port) : (s.onPort i f).job = s.job := rfl
@[simp] theorem onPort_sealSt (i : Nat) (f : Port → Port) : (s.onPort i f).sealSt = s.sealSt := rfl
@[simp] theorem onPort_cores (i : Nat) (f : Port → Port) : (s.onPort i f).cores = s.cores := rfl
@[simp] theorem onPort_coreMap (i : Nat) (f : Port → Port) : (s.onPort i f).coreMap = s.coreMap := rfl
@[simp] theorem onPort_repairs (i : Nat) (f : Port → Port) : (s.onPort i f).repairs = s.repairs := rfl
@[simp] theorem onPort_hubs (i : Nat) (f : Port → Port) : (s.onPort i f).hubs = s.hubs := rfl
@[simp] theorem onPort_hbmStacks (i : Nat) (f : Port → Port) : (s.onPort i f).hbmStacks = s.hbmStacks := rfl
@[simp] theorem onPort_mem (i : Nat) (f : Port → Port) : (s.onPort i f).mem = s.mem := rfl
@[simp] theorem onPort_poison (i : Nat) (f : Port → Port) : (s.onPort i f).poison = s.poison := rfl
@[simp] theorem onPort_dir (i : Nat) (f : Port → Port) : (s.onPort i f).dir = s.dir := rfl
@[simp] theorem onPort_rowSplit (i : Nat) (f : Port → Port) : (s.onPort i f).rowSplit = s.rowSplit := rfl
@[simp] theorem onPort_links (i : Nat) (f : Port → Port) : (s.onPort i f).links = s.links := rfl
@[simp] theorem onPort_ports (i : Nat) (f : Port → Port) : (s.onPort i f).ports = Tab.modify {} i f s.ports := rfl
@[simp] theorem onPort_router (i : Nat) (f : Port → Port) : (s.onPort i f).router = s.router := rfl
@[simp] theorem onPort_gws (i : Nat) (f : Port → Port) : (s.onPort i f).gws = s.gws := rfl
@[simp] theorem onPort_survey (i : Nat) (f : Port → Port) : (s.onPort i f).survey = s.survey := rfl
@[simp] theorem onPort_topo (i : Nat) (f : Port → Port) : (s.onPort i f).topo = s.topo := rfl
@[simp] theorem onPort_power (i : Nat) (f : Port → Port) : (s.onPort i f).power = s.power := rfl
@[simp] theorem onPort_integ (i : Nat) (f : Port → Port) : (s.onPort i f).integ = s.integ := rfl
@[simp] theorem onPort_dump (i : Nat) (f : Port → Port) : (s.onPort i f).dump = s.dump := rfl
@[simp] theorem onPort_sec (i : Nat) (f : Port → Port) : (s.onPort i f).sec = s.sec := rfl
@[simp] theorem onPort_mgmt (i : Nat) (f : Port → Port) : (s.onPort i f).mgmt = s.mgmt := rfl
@[simp] theorem onPort_free (i : Nat) (f : Port → Port) : (s.onPort i f).free = s.free := rfl
@[simp] theorem onPort_emitted (i : Nat) (f : Port → Port) : (s.onPort i f).emitted = s.emitted := rfl
@[simp] theorem onPort_pending (i : Nat) (f : Port → Port) : (s.onPort i f).pending = s.pending := rfl

@[simp] theorem onGw_fuses (i : Nat) (f : Gateway → Gateway) : (s.onGw i f).fuses = s.fuses := rfl
@[simp] theorem onGw_dev (i : Nat) (f : Gateway → Gateway) : (s.onGw i f).dev = s.dev := rfl
@[simp] theorem onGw_clock (i : Nat) (f : Gateway → Gateway) : (s.onGw i f).clock = s.clock := rfl
@[simp] theorem onGw_mer (i : Nat) (f : Gateway → Gateway) : (s.onGw i f).mer = s.mer := rfl
@[simp] theorem onGw_log (i : Nat) (f : Gateway → Gateway) : (s.onGw i f).log = s.log := rfl
@[simp] theorem onGw_faults (i : Nat) (f : Gateway → Gateway) : (s.onGw i f).faults = s.faults := rfl
@[simp] theorem onGw_regs (i : Nat) (f : Gateway → Gateway) : (s.onGw i f).regs = s.regs := rfl
@[simp] theorem onGw_mboxes (i : Nat) (f : Gateway → Gateway) : (s.onGw i f).mboxes = s.mboxes := rfl
@[simp] theorem onGw_cofin (i : Nat) (f : Gateway → Gateway) : (s.onGw i f).cofin = s.cofin := rfl
@[simp] theorem onGw_job (i : Nat) (f : Gateway → Gateway) : (s.onGw i f).job = s.job := rfl
@[simp] theorem onGw_sealSt (i : Nat) (f : Gateway → Gateway) : (s.onGw i f).sealSt = s.sealSt := rfl
@[simp] theorem onGw_cores (i : Nat) (f : Gateway → Gateway) : (s.onGw i f).cores = s.cores := rfl
@[simp] theorem onGw_coreMap (i : Nat) (f : Gateway → Gateway) : (s.onGw i f).coreMap = s.coreMap := rfl
@[simp] theorem onGw_repairs (i : Nat) (f : Gateway → Gateway) : (s.onGw i f).repairs = s.repairs := rfl
@[simp] theorem onGw_hubs (i : Nat) (f : Gateway → Gateway) : (s.onGw i f).hubs = s.hubs := rfl
@[simp] theorem onGw_hbmStacks (i : Nat) (f : Gateway → Gateway) : (s.onGw i f).hbmStacks = s.hbmStacks := rfl
@[simp] theorem onGw_mem (i : Nat) (f : Gateway → Gateway) : (s.onGw i f).mem = s.mem := rfl
@[simp] theorem onGw_poison (i : Nat) (f : Gateway → Gateway) : (s.onGw i f).poison = s.poison := rfl
@[simp] theorem onGw_dir (i : Nat) (f : Gateway → Gateway) : (s.onGw i f).dir = s.dir := rfl
@[simp] theorem onGw_rowSplit (i : Nat) (f : Gateway → Gateway) : (s.onGw i f).rowSplit = s.rowSplit := rfl
@[simp] theorem onGw_links (i : Nat) (f : Gateway → Gateway) : (s.onGw i f).links = s.links := rfl
@[simp] theorem onGw_ports (i : Nat) (f : Gateway → Gateway) : (s.onGw i f).ports = s.ports := rfl
@[simp] theorem onGw_router (i : Nat) (f : Gateway → Gateway) : (s.onGw i f).router = s.router := rfl
@[simp] theorem onGw_gws (i : Nat) (f : Gateway → Gateway) : (s.onGw i f).gws = Tab.modify {} i f s.gws := rfl
@[simp] theorem onGw_survey (i : Nat) (f : Gateway → Gateway) : (s.onGw i f).survey = s.survey := rfl
@[simp] theorem onGw_topo (i : Nat) (f : Gateway → Gateway) : (s.onGw i f).topo = s.topo := rfl
@[simp] theorem onGw_power (i : Nat) (f : Gateway → Gateway) : (s.onGw i f).power = s.power := rfl
@[simp] theorem onGw_integ (i : Nat) (f : Gateway → Gateway) : (s.onGw i f).integ = s.integ := rfl
@[simp] theorem onGw_dump (i : Nat) (f : Gateway → Gateway) : (s.onGw i f).dump = s.dump := rfl
@[simp] theorem onGw_sec (i : Nat) (f : Gateway → Gateway) : (s.onGw i f).sec = s.sec := rfl
@[simp] theorem onGw_mgmt (i : Nat) (f : Gateway → Gateway) : (s.onGw i f).mgmt = s.mgmt := rfl
@[simp] theorem onGw_free (i : Nat) (f : Gateway → Gateway) : (s.onGw i f).free = s.free := rfl
@[simp] theorem onGw_emitted (i : Nat) (f : Gateway → Gateway) : (s.onGw i f).emitted = s.emitted := rfl
@[simp] theorem onGw_pending (i : Nat) (f : Gateway → Gateway) : (s.onGw i f).pending = s.pending := rfl

@[simp] theorem emit_fuses (e : Emission) : (s.emit e).fuses = s.fuses := rfl
@[simp] theorem emit_dev (e : Emission) : (s.emit e).dev = s.dev := rfl
@[simp] theorem emit_clock (e : Emission) : (s.emit e).clock = s.clock := rfl
@[simp] theorem emit_mer (e : Emission) : (s.emit e).mer = s.mer := rfl
@[simp] theorem emit_log (e : Emission) : (s.emit e).log = s.log := rfl
@[simp] theorem emit_faults (e : Emission) : (s.emit e).faults = s.faults := rfl
@[simp] theorem emit_regs (e : Emission) : (s.emit e).regs = s.regs := rfl
@[simp] theorem emit_mboxes (e : Emission) : (s.emit e).mboxes = s.mboxes := rfl
@[simp] theorem emit_cofin (e : Emission) : (s.emit e).cofin = s.cofin := rfl
@[simp] theorem emit_job (e : Emission) : (s.emit e).job = s.job := rfl
@[simp] theorem emit_sealSt (e : Emission) : (s.emit e).sealSt = s.sealSt := rfl
@[simp] theorem emit_cores (e : Emission) : (s.emit e).cores = s.cores := rfl
@[simp] theorem emit_coreMap (e : Emission) : (s.emit e).coreMap = s.coreMap := rfl
@[simp] theorem emit_repairs (e : Emission) : (s.emit e).repairs = s.repairs := rfl
@[simp] theorem emit_hubs (e : Emission) : (s.emit e).hubs = s.hubs := rfl
@[simp] theorem emit_hbmStacks (e : Emission) : (s.emit e).hbmStacks = s.hbmStacks := rfl
@[simp] theorem emit_mem (e : Emission) : (s.emit e).mem = s.mem := rfl
@[simp] theorem emit_poison (e : Emission) : (s.emit e).poison = s.poison := rfl
@[simp] theorem emit_dir (e : Emission) : (s.emit e).dir = s.dir := rfl
@[simp] theorem emit_rowSplit (e : Emission) : (s.emit e).rowSplit = s.rowSplit := rfl
@[simp] theorem emit_links (e : Emission) : (s.emit e).links = s.links := rfl
@[simp] theorem emit_ports (e : Emission) : (s.emit e).ports = s.ports := rfl
@[simp] theorem emit_router (e : Emission) : (s.emit e).router = s.router := rfl
@[simp] theorem emit_gws (e : Emission) : (s.emit e).gws = s.gws := rfl
@[simp] theorem emit_survey (e : Emission) : (s.emit e).survey = s.survey := rfl
@[simp] theorem emit_topo (e : Emission) : (s.emit e).topo = s.topo := rfl
@[simp] theorem emit_power (e : Emission) : (s.emit e).power = s.power := rfl
@[simp] theorem emit_integ (e : Emission) : (s.emit e).integ = s.integ := rfl
@[simp] theorem emit_dump (e : Emission) : (s.emit e).dump = s.dump := rfl
@[simp] theorem emit_sec (e : Emission) : (s.emit e).sec = s.sec := rfl
@[simp] theorem emit_mgmt (e : Emission) : (s.emit e).mgmt = s.mgmt := rfl
@[simp] theorem emit_free (e : Emission) : (s.emit e).free = s.free := rfl
@[simp] theorem emit_emitted (e : Emission) : (s.emit e).emitted = e :: s.emitted := rfl
@[simp] theorem emit_pending (e : Emission) : (s.emit e).pending = s.pending := rfl

@[simp] theorem advance_fuses (n : Nat) : (s.advance n).fuses = s.fuses := rfl
@[simp] theorem advance_dev (n : Nat) : (s.advance n).dev = s.dev := rfl
@[simp] theorem advance_mer (n : Nat) : (s.advance n).mer = s.mer := rfl
@[simp] theorem advance_log (n : Nat) : (s.advance n).log = s.log := rfl
@[simp] theorem advance_faults (n : Nat) : (s.advance n).faults = s.faults := rfl
@[simp] theorem advance_regs (n : Nat) : (s.advance n).regs = s.regs := rfl
@[simp] theorem advance_mboxes (n : Nat) : (s.advance n).mboxes = s.mboxes := rfl
@[simp] theorem advance_cofin (n : Nat) : (s.advance n).cofin = s.cofin := rfl
@[simp] theorem advance_job (n : Nat) : (s.advance n).job = s.job := rfl
@[simp] theorem advance_sealSt (n : Nat) : (s.advance n).sealSt = s.sealSt := rfl
@[simp] theorem advance_cores (n : Nat) : (s.advance n).cores = s.cores := rfl
@[simp] theorem advance_coreMap (n : Nat) : (s.advance n).coreMap = s.coreMap := rfl
@[simp] theorem advance_repairs (n : Nat) : (s.advance n).repairs = s.repairs := rfl
@[simp] theorem advance_hubs (n : Nat) : (s.advance n).hubs = s.hubs := rfl
@[simp] theorem advance_hbmStacks (n : Nat) : (s.advance n).hbmStacks = s.hbmStacks := rfl
@[simp] theorem advance_mem (n : Nat) : (s.advance n).mem = s.mem := rfl
@[simp] theorem advance_poison (n : Nat) : (s.advance n).poison = s.poison := rfl
@[simp] theorem advance_dir (n : Nat) : (s.advance n).dir = s.dir := rfl
@[simp] theorem advance_rowSplit (n : Nat) : (s.advance n).rowSplit = s.rowSplit := rfl
@[simp] theorem advance_links (n : Nat) : (s.advance n).links = s.links := rfl
@[simp] theorem advance_ports (n : Nat) : (s.advance n).ports = s.ports := rfl
@[simp] theorem advance_router (n : Nat) : (s.advance n).router = s.router := rfl
@[simp] theorem advance_gws (n : Nat) : (s.advance n).gws = s.gws := rfl
@[simp] theorem advance_survey (n : Nat) : (s.advance n).survey = s.survey := rfl
@[simp] theorem advance_topo (n : Nat) : (s.advance n).topo = s.topo := rfl
@[simp] theorem advance_power (n : Nat) : (s.advance n).power = s.power := rfl
@[simp] theorem advance_integ (n : Nat) : (s.advance n).integ = s.integ := rfl
@[simp] theorem advance_dump (n : Nat) : (s.advance n).dump = s.dump := rfl
@[simp] theorem advance_sec (n : Nat) : (s.advance n).sec = s.sec := rfl
@[simp] theorem advance_mgmt (n : Nat) : (s.advance n).mgmt = s.mgmt := rfl
@[simp] theorem advance_free (n : Nat) : (s.advance n).free = s.free := rfl
@[simp] theorem advance_emitted (n : Nat) : (s.advance n).emitted = s.emitted := rfl
@[simp] theorem advance_pending (n : Nat) : (s.advance n).pending = s.pending := rfl

end Sys2Proof.Machine
end

