-- ==== Sys2Proof/Laws/Tab.lean ====
section
/-! SUPPORT. What reading a table after a write gives, and that every table operation keeps the canonical form. -/
namespace Sys2Proof.Machine

variable {α : Type} [DecidableEq α]

omit [DecidableEq α] in
theorem Tab.get_drop_same (d : α) (k : Nat) (t : Table α) : Tab.get d k (Tab.drop k t) = d := by
  induction t with
  | nil => rfl
  | cons e t ih =>
    by_cases h : e.1 = k <;> simp [Tab.drop, Tab.get, h, ih]

omit [DecidableEq α] in
theorem Tab.get_drop_other (d : α) {j k : Nat} (h : j ≠ k) (t : Table α) :
    Tab.get d j (Tab.drop k t) = Tab.get d j t := by
  induction t with
  | nil => rfl
  | cons e t ih =>
    by_cases hk : e.1 = k
    · simp [Tab.drop, Tab.get, hk, ih, Ne.symm h]
    · simp [Tab.drop, Tab.get, hk, ih]

omit [DecidableEq α] in
theorem Tab.get_place_same (d v : α) (k : Nat) (t : Table α) :
    Tab.get d k (Tab.place k v (Tab.drop k t)) = v := by
  induction t with
  | nil => simp [Tab.drop, Tab.place, Tab.get]
  | cons e t ih =>
    by_cases hk : e.1 = k
    · simp [Tab.drop, hk, ih]
    · by_cases hl : k < e.1 <;> simp [Tab.drop, Tab.place, Tab.get, hk, hl, ih]

omit [DecidableEq α] in
theorem Tab.get_place_other (d v : α) {j k : Nat} (h : j ≠ k) (t : Table α) :
    Tab.get d j (Tab.place k v t) = Tab.get d j t := by
  induction t with
  | nil => simp [Tab.place, Tab.get, Ne.symm h]
  | cons e t ih =>
    by_cases hl : k < e.1
    · simp [Tab.place, Tab.get, hl, Ne.symm h]
    · simp [Tab.place, Tab.get, hl, ih]

@[simp] theorem Tab.get_set_same (d v : α) (k : Nat) (t : Table α) :
    Tab.get d k (Tab.set d k v t) = v := by
  unfold Tab.set
  split
  · next h => rw [Tab.get_drop_same, h]
  · exact Tab.get_place_same d v k t

theorem Tab.get_set_other (d v : α) {j k : Nat} (h : j ≠ k) (t : Table α) :
    Tab.get d j (Tab.set d k v t) = Tab.get d j t := by
  unfold Tab.set
  split
  · exact Tab.get_drop_other d h t
  · rw [Tab.get_place_other d v h, Tab.get_drop_other d h]

theorem Tab.wfFrom_weaken {d : α} {lo : Option Nat} {b : Nat} {t : Table α}
    (h : Tab.wfFrom d (some b) t = true) (hl : ∀ c, lo = some c → c ≤ b) : Tab.wfFrom d lo t = true := by
  cases t with
  | nil => rfl
  | cons e t =>
    simp only [Tab.wfFrom, Bool.and_eq_true, decide_eq_true_eq] at h ⊢
    refine ⟨⟨?_, h.1.2⟩, h.2⟩
    cases lo with
    | none => rfl
    | some c => exact decide_eq_true (Nat.lt_of_le_of_lt (hl c rfl) h.1.1)

theorem Tab.wfFrom_drop {d : α} (k : Nat) {t : Table α} :
    ∀ {lo : Option Nat}, Tab.wfFrom d lo t = true → Tab.wfFrom d lo (Tab.drop k t) = true := by
  induction t with
  | nil => intro lo h; exact h
  | cons e t ih =>
    intro lo h
    simp only [Tab.wfFrom, Bool.and_eq_true, decide_eq_true_eq] at h
    by_cases hk : e.1 = k
    · rw [Tab.drop, if_pos hk]
      refine ih (Tab.wfFrom_weaken h.2 ?_)
      intro c hc
      subst hc
      exact Nat.le_of_lt (of_decide_eq_true h.1.1)
    · rw [Tab.drop, if_neg hk]
      simp only [Tab.wfFrom, Bool.and_eq_true, decide_eq_true_eq]
      exact ⟨h.1, ih h.2⟩

theorem Tab.wfFrom_place {d v : α} (hv : v ≠ d) (k : Nat) {t : Table α} :
    ∀ {lo : Option Nat}, (∀ c, lo = some c → c < k) → (∀ e ∈ t, e.1 ≠ k) → Tab.wfFrom d lo t = true →
      Tab.wfFrom d lo (Tab.place k v t) = true := by
  induction t with
  | nil =>
    intro lo hlo _ _
    cases lo with
    | none => simp [Tab.place, Tab.wfFrom, hv]
    | some c => simp [Tab.place, Tab.wfFrom, hv, hlo c rfl]
  | cons e t ih =>
    intro lo hlo hne h
    simp only [Tab.wfFrom, Bool.and_eq_true, decide_eq_true_eq] at h
    by_cases hl : k < e.1
    · rw [Tab.place, if_pos hl]
      cases lo with
      | none => simp [Tab.wfFrom, hv, hl, h.1.2, h.2]
      | some c => simp [Tab.wfFrom, hv, hl, h.1.2, h.2, hlo c rfl]
    · rw [Tab.place, if_neg hl]
      have hne' : e.1 ≠ k := hne e (by simp)
      simp only [Tab.wfFrom, Bool.and_eq_true, decide_eq_true_eq]
      refine ⟨h.1, ih ?_ (fun x hx => hne x (by simp [hx])) h.2⟩
      intro c hc
      cases hc
      omega

omit [DecidableEq α] in
theorem Tab.drop_ne (k : Nat) (t : Table α) : ∀ e ∈ Tab.drop k t, e.1 ≠ k := by
  induction t with
  | nil => intro e h; simp [Tab.drop] at h
  | cons x t ih =>
    intro e h
    by_cases hk : x.1 = k
    · rw [Tab.drop, if_pos hk] at h; exact ih e h
    · rw [Tab.drop, if_neg hk] at h
      rcases List.mem_cons.mp h with rfl | h
      · exact hk
      · exact ih e h

/-- Every write of a table keeps the canonical form. -/
theorem Tab.wf_set {d : α} (k : Nat) (v : α) {t : Table α} (h : Tab.wf d t = true) :
    Tab.wf d (Tab.set d k v t) = true := by
  unfold Tab.set Tab.wf at *
  split
  · exact Tab.wfFrom_drop k h
  · next hv => exact Tab.wfFrom_place hv k (by simp) (Tab.drop_ne k t) (Tab.wfFrom_drop k h)

theorem Tab.wf_setRun {d : α} (vs : List α) : ∀ (k : Nat) {t : Table α}, Tab.wf d t = true →
    Tab.wf d (Tab.setRun d k vs t) = true := by
  induction vs with
  | nil => intro k t h; exact h
  | cons v vs ih => intro k t h; exact ih (k + 1) (Tab.wf_set k v h)

theorem Tab.wfFrom_filter {d : α} (p : Nat × α → Bool) {t : Table α} :
    ∀ {lo : Option Nat}, Tab.wfFrom d lo t = true → Tab.wfFrom d lo (t.filter p) = true := by
  induction t with
  | nil => intro lo h; exact h
  | cons e t ih =>
    intro lo h
    simp only [Tab.wfFrom, Bool.and_eq_true, decide_eq_true_eq] at h
    by_cases hp : p e = true
    · rw [List.filter_cons_of_pos hp]
      simp only [Tab.wfFrom, Bool.and_eq_true, decide_eq_true_eq]
      exact ⟨h.1, ih h.2⟩
    · rw [List.filter_cons_of_neg hp]
      refine ih (Tab.wfFrom_weaken h.2 ?_)
      intro c hc
      subst hc
      exact Nat.le_of_lt (of_decide_eq_true h.1.1)

theorem Tab.wf_clear {d : α} (lo hi : Nat) {t : Table α} (h : Tab.wf d t = true) :
    Tab.wf d (Tab.clear lo hi t) = true :=
  Tab.wfFrom_filter _ h

/-- A run of writes leaves every key outside the run as it was. -/
theorem Tab.get_setRun_outside (d : α) (vs : List α) : ∀ (k j : Nat) (t : Table α),
    (j < k ∨ k + vs.length ≤ j) → Tab.get d j (Tab.setRun d k vs t) = Tab.get d j t := by
  induction vs with
  | nil => intro k j t _; rfl
  | cons v vs ih =>
    intro k j t h
    simp only [List.length_cons] at h
    rw [Tab.setRun, ih (k + 1) j _ (by omega), Tab.get_set_other d v (by omega)]

end Sys2Proof.Machine
end

