-- ==== Sys2Proof/Laws/Ops.lean ====
section
/-! SUPPORT. What the shared operations do: the parts each one touches, the entry that logging an event leaves, and the completion of a
fetched command. -/
namespace Sys2Proof

open Sys2Proof.Machine

/-! ## Frames -/

theorem Only.refl (l : List Part) (s : State) : Only l s s := by
  intro p _; cases p <;> simp [Keeps]

theorem Keeps.trans {s t u : State} {p : Part} (h : Keeps s t p) (k : Keeps t u p) : Keeps s u p := by
  cases p <;> simp_all [Keeps]

theorem Only.trans {l : List Part} {s t u : State} (h : Only l s t) (k : Only l t u) : Only l s u :=
  fun p hp => (h p hp).trans (k p hp)

theorem Only.mono {l m : List Part} {s t : State} (h : Only l s t) (hs : l ⊆ m) : Only m s t :=
  fun p hp => h p fun hl => hp (hs hl)

/-- A fold of steps that each stay within `l` stays within `l`. -/
theorem Only.each {α : Type} {l : List Part} {f : State → α → State} (h : ∀ s a, Only l s (f s a)) (xs : List α) (s : State) :
    Only l s (s.each xs f) := by
  induction xs generalizing s with
  | nil => exact Only.refl l s
  | cons x xs ih => exact (h s x).trans (ih (f s x))

theorem Only.ite {l : List Part} {s t u : State} {c : Prop} [Decidable c] (ht : Only l s t) (hu : Only l s u) :
    Only l s (if c then t else u) := by
  split <;> assumption

/-! ## Emissions, interrupts and the log -/

theorem emit_only (e : Emission) (s : State) : Only [.emitted] s (s.emit e) := by
  intro p hp; cases p <;> simp_all [Keeps, State.emit, State.byteAt]

theorem interrupt_only (a : BitVec 64) (d : Word) (s : State) : Only [.irqs, .emitted] s (s.interrupt a d) := by
  unfold State.interrupt
  split
  · exact (emit_only _ s).mono (by decide)
  · intro p hp; cases p <;> simp_all [Keeps, State.byteAt]

theorem pend_only (cls : Nat) (s : State) : Only [.pendingBits, .irqs, .emitted] s (s.pend cls) := by
  have h : ∀ b : Byte, Only [.pendingBits, .irqs, .emitted] s (s.onRegs fun r => { r with eventPending := r.eventPending ||| b }) := by
    intro b p hp; cases p <;> simp_all [Keeps, State.byteAt]
  unfold State.pend
  dsimp only
  split
  · split
    · exact h _
    · exact (h _).trans ((interrupt_only _ _ _).mono (by decide))
  · exact Only.refl _ s

theorem logRaw_only (cls src code detail : Nat) (s : State) :
    Only [.log, .pendingBits, .irqs, .emitted] s (s.logRaw cls src code detail) := by
  have h : ∀ e, Only [.log, .pendingBits, .irqs, .emitted] s ((s.onLog (EventLog.push e)).pend cls) := by
    intro e
    refine Only.trans ?_ ((pend_only cls _).mono (by decide))
    intro p hp; cases p <;> simp_all [Keeps, State.byteAt]
  have h1 := fun e x => (h e).trans ((emit_only x _).mono (by decide))
  have h2 := fun e x y => (h1 e x).trans ((emit_only y _).mono (by decide))
  unfold State.logRaw
  dsimp only
  split
  · split
    · exact h1 _ _
    · exact h2 _ _ _
  · exact h _

theorem onLog_only (f : EventLog → EventLog) (s : State) : Only [.log] s (s.onLog f) := by
  intro p hp; cases p <;> simp_all [Keeps, State.byteAt]

theorem logBurst_only (s : State) (b : Burst) : Only [.log, .pendingBits, .irqs, .emitted] s (s.logBurst b) :=
  Only.ite (Only.refl _ s) (logRaw_only _ _ _ _ s)

theorem flushBursts_only (ms : Nat) (s : State) : Only [.log, .pendingBits, .irqs, .emitted] s (s.flushBursts ms) :=
  ((onLog_only _ s).mono (by decide)).trans (Only.each logBurst_only _ _)

theorem logCoalesced_only (cls src code detail : Nat) (s : State) :
    Only [.log, .pendingBits, .irqs, .emitted] s (s.logCoalesced cls src code detail) := by
  unfold State.logCoalesced
  dsimp only
  refine (flushBursts_only s.ms s).trans ?_
  have h := fun f => (onLog_only f (s.flushBursts s.ms)).mono (m := [.log, .pendingBits, .irqs, .emitted]) (by decide)
  split
  · exact (h _).trans (logRaw_only _ _ _ _ _)
  · exact Only.ite ((h _).trans (logRaw_only _ _ _ _ _)) (h _)

theorem countStatus_only (cls code : Nat) (s : State) : Only [.log, .status] s (s.countStatus cls code) := by
  have h : Only [.log, .status] s (if cls = 4 then s.onLog fun l => { l with integ := satInc l.integ } else s) :=
    Only.ite ((onLog_only _ s).mono (by decide)) (Only.refl _ s)
  unfold State.countStatus
  dsimp only
  refine h.trans ?_
  repeat' split
  all_goals first
    | exact Only.refl _ _
    | (intro p hp; cases p <;> simp_all [Keeps, State.byteAt, otherIntegrity])

theorem lasting_only (s : State) : Only [.status] s (s.onInteg fun i => { i with lasting := satInc i.lasting }) := by
  intro p hp; cases p <;> simp_all [Keeps, State.byteAt, otherIntegrity]

/-- Logging and counting an event touches the parts of `logging` only. -/
theorem logVerdict_only (e : Event) (src detail sub : Nat) (s : State) : Only logging s (s.logVerdict e src detail sub).1 := by
  have h : ∀ cls code, Only logging s ((s.logCoalesced cls src code detail).countStatus cls code) := fun cls code =>
    ((logCoalesced_only cls src code detail s).mono (by decide)).trans ((countStatus_only cls code _).mono (by decide))
  unfold State.logVerdict
  dsimp only
  split
  · have hf : ∀ t : State, ∀ r : FaultWindows × Bool, r = t.faults.count e.info.2 src sub t.clock.uptime →
        Only logging t (t.onFaults fun _ => r.1) := by
      intro t r hr p hp
      subst hr
      cases p <;> simp_all [Keeps, logging, State.byteAt, FaultWindows.count]
      split <;> rfl
    split
    · exact (((h e.info.1 e.info.2).trans (hf _ _ rfl)).trans
        ((logRaw_only e.info.1 src 0xF09 e.info.2 _).mono (by decide))).trans ((lasting_only _).mono (by decide))
    · exact (h e.info.1 e.info.2).trans (hf _ _ rfl)
  · exact h _ _

theorem note_only (e : Event) (src detail : Nat) (s : State) : Only logging s (s.note e src detail) :=
  logVerdict_only e src detail 0 s

/-! ## The entry of an event -/

theorem pend_log (cls : Nat) (s : State) : (s.pend cls).log = s.log := pend_only cls s .log (by decide)

theorem push_logged (e : Entry) (l : EventLog) :
    (l.push e).lastEvent = e.event ∧ (l.push e).nextSeq = l.nextSeq + 1 ∧ (e ∈ (l.push e).first ∨ e ∈ (l.push e).ring) := by
  unfold EventLog.push
  dsimp only
  split
  · simp
  · split <;> simp

/-- The log after a raw entry is the log with the entry pushed. -/
theorem logRaw_log (cls src code detail : Nat) (s : State) :
    (s.logRaw cls src code detail).log = s.log.push
      { event := eventWord cls src code, seq := s.log.nextSeq, uptime := BitVec.ofNat 64 s.clock.uptime
        meridian := s.meridianStamp, detail := BitVec.ofNat 64 detail } := by
  unfold State.logRaw
  dsimp only
  split
  · split <;> simp [State.emit, pend_log]
  · simp [pend_log]

theorem countStatus_entries (cls code : Nat) (s : State) :
    (s.countStatus cls code).log.lastEvent = s.log.lastEvent ∧ (s.countStatus cls code).log.nextSeq = s.log.nextSeq ∧
      (s.countStatus cls code).log.first = s.log.first ∧ (s.countStatus cls code).log.ring = s.log.ring := by
  unfold State.countStatus
  dsimp only
  repeat' split
  all_goals simp

theorem countStatus_faults (cls code : Nat) (s : State) : (s.countStatus cls code).faults = s.faults := by
  unfold State.countStatus
  dsimp only
  repeat' split
  all_goals simp

theorem flushBursts_quiet (s : State) (h : s.log.bursts = []) : s.flushBursts s.ms = s := by
  obtain ⟨fuses, dev, clock, mer, log, rest⟩ := s
  cases log
  simp_all [State.flushBursts, State.each, State.onLog]

theorem logCoalesced_quiet (cls src code detail : Nat) (s : State) (h : s.log.bursts = []) :
    s.logCoalesced cls src code detail =
      (s.onLog fun l => { l with bursts := [⟨eventWord cls src code, s.ms, 1⟩] }).logRaw cls src code detail := by
  unfold State.logCoalesced
  simp [flushBursts_quiet s h, h, State.onLog]

/-- The first event of a key in its windows reaches no threshold of 3 (R367, R368). -/
theorem count_quiet (f : FaultWindows) (code src sub uptime : Nat) (hc : f.counts = []) (hp : f.policies = []) :
    (f.count code src sub uptime).2 = false := by
  simp [FaultWindows.count, FaultWindows.policy, FaultCount.bump, hc, hp]

/-- A quiet state logs the next event, and nothing beside it. -/
theorem note_logged (e : Event) (src detail : Nat) (s : State) (h : Quiet s) : Logged e src detail s (s.note e src detail) := by
  obtain ⟨hb, hc, hp⟩ := h
  have hl : ∀ t : State, t.log.lastEvent = eventWord e.info.1 src e.info.2 ∧ t.log.nextSeq = s.log.nextSeq + 1 ∧
      (entryOf s e src detail ∈ t.log.first ∨ entryOf s e src detail ∈ t.log.ring) → Logged e src detail s t := fun t ht => ht
  have h0 : Logged e src detail s ((s.logCoalesced e.info.1 src e.info.2 detail).countStatus e.info.1 e.info.2) := by
    obtain ⟨h1, h2, h3, h4⟩ := countStatus_entries e.info.1 e.info.2 (s.logCoalesced e.info.1 src e.info.2 detail)
    apply hl
    rw [h1, h2, h3, h4, logCoalesced_quiet _ _ _ _ _ hb, logRaw_log]
    exact push_logged (entryOf s e src detail) _
  have hf : ((s.logCoalesced e.info.1 src e.info.2 detail).countStatus e.info.1 e.info.2).faults = s.faults := by
    have h1 := logCoalesced_only e.info.1 src e.info.2 detail s .counts (by decide)
    have h2 := logCoalesced_only e.info.1 src e.info.2 detail s .policies (by decide)
    simp only [Keeps] at h1 h2
    rw [countStatus_faults]
    cases hx : (s.logCoalesced e.info.1 src e.info.2 detail).faults
    cases hy : s.faults
    simp_all
  unfold State.note State.logVerdict
  dsimp only
  rw [hf]
  split
  · rw [if_neg (by rw [count_quiet _ _ _ _ _ hc hp]; decide)]
    exact h0
  · exact h0

/-! ## The first-fault area stays (R355) -/

theorem KeepsFirst.refl (s : State) : KeepsFirst s s := fun _ h => h

theorem KeepsFirst.trans {s t u : State} (h : KeepsFirst s t) (k : KeepsFirst t u) : KeepsFirst s u := fun e he => k e (h e he)

theorem KeepsFirst.each {α : Type} {f : State → α → State} (h : ∀ s a, KeepsFirst s (f s a)) (xs : List α) (s : State) :
    KeepsFirst s (s.each xs f) := by
  induction xs generalizing s with
  | nil => exact KeepsFirst.refl s
  | cons x xs ih => exact KeepsFirst.trans (h s x) (ih (f s x))

theorem push_first (e : Entry) (l : EventLog) : ∀ x ∈ l.first, x ∈ (l.push e).first := by
  intro x hx
  unfold EventLog.push
  dsimp only
  split
  · simp [hx]
  · split <;> simpa using hx

theorem logRaw_first (cls src code detail : Nat) (s : State) : KeepsFirst s (s.logRaw cls src code detail) := by
  intro e he
  rw [logRaw_log]
  exact push_first _ _ e he

theorem logCoalesced_first (cls src code detail : Nat) (s : State) : KeepsFirst s (s.logCoalesced cls src code detail) := by
  have hb : ∀ (s : State) (b : Burst), KeepsFirst s (s.logBurst b) := by
    intro s b
    unfold State.logBurst
    split
    · exact KeepsFirst.refl s
    · exact logRaw_first _ _ _ _ _
  have hf : KeepsFirst s (s.flushBursts s.ms) := fun e he => KeepsFirst.each hb _ _ e he
  unfold State.logCoalesced
  dsimp only
  refine KeepsFirst.trans hf ?_
  split
  · exact fun e he => logRaw_first _ _ _ _ _ e he
  · split
    · exact fun e he => logRaw_first _ _ _ _ _ e he
    · exact fun _ h => h

theorem note_first (e : Event) (src detail : Nat) (s : State) : KeepsFirst s (s.note e src detail) := by
  have h0 : KeepsFirst s ((s.logCoalesced e.info.1 src e.info.2 detail).countStatus e.info.1 e.info.2) := by
    intro x hx
    rw [(countStatus_entries _ _ _).2.2.1]
    exact logCoalesced_first _ _ _ _ _ x hx
  unfold State.note State.logVerdict
  dsimp only
  split
  · split
    · exact KeepsFirst.trans h0 fun e he => logRaw_first _ _ _ _ _ e he
    · exact h0
  · exact h0

/-! ## Device states -/

theorem onDev_only (f : Device → Device) (s : State) : Only [.dev] s (s.onDev f) := by
  intro p hp; cases p <;> simp_all [Keeps, State.byteAt]

theorem enter_only (d : DevState) (s : State) : Only (.dev :: logging) s (s.enter d) := by
  unfold State.enter
  refine Only.ite (Only.refl _ s) ?_
  exact ((onDev_only _ s).mono (by decide)).trans ((note_only _ _ _ _).mono (by decide))

theorem hold_only (cause : Nat) (s : State) : Only (.dev :: logging) s (s.hold cause) :=
  (enter_only .held s).trans ((onDev_only _ _).mono (by decide))

/-! ## Fields that logging an event leaves, one by one -/

/-- The state without the parts that logging touches. -/
def apartLog (s : State) : State := { s with log := {}, faults := {}, regs := {}, cofin := {}, emitted := [], integ := {} }

theorem emit_apart (e : Emission) (s : State) : apartLog (s.emit e) = apartLog s := rfl

theorem interrupt_apart (a : BitVec 64) (d : Word) (s : State) : apartLog (s.interrupt a d) = apartLog s := by
  unfold State.interrupt; split <;> rfl

theorem pend_apart (cls : Nat) (s : State) : apartLog (s.pend cls) = apartLog s := by
  unfold State.pend
  dsimp only
  split
  · split
    · rfl
    · rw [interrupt_apart]; rfl
  · rfl

theorem logRaw_apart (cls src code detail : Nat) (s : State) : apartLog (s.logRaw cls src code detail) = apartLog s := by
  have h : ∀ e, apartLog ((s.onLog (EventLog.push e)).pend cls) = apartLog s := fun e => by rw [pend_apart]; rfl
  unfold State.logRaw
  dsimp only
  split
  · split
    · exact (emit_apart _ _).trans (h _)
    · exact (emit_apart _ _).trans ((emit_apart _ _).trans (h _))
  · exact h _

theorem each_apart {α : Type} {f : State → α → State} (h : ∀ s a, apartLog (f s a) = apartLog s) (xs : List α) (s : State) :
    apartLog (s.each xs f) = apartLog s := by
  induction xs generalizing s with
  | nil => rfl
  | cons x xs ih => exact (ih (f s x)).trans (h s x)

theorem logCoalesced_apart (cls src code detail : Nat) (s : State) : apartLog (s.logCoalesced cls src code detail) = apartLog s := by
  have hb : ∀ (s : State) (b : Burst), apartLog (s.logBurst b) = apartLog s := by
    intro s b
    unfold State.logBurst
    split
    · rfl
    · exact logRaw_apart _ _ _ _ _
  have hf : apartLog (s.flushBursts s.ms) = apartLog s := (each_apart hb _ _).trans rfl
  unfold State.logCoalesced
  dsimp only
  refine Eq.trans ?_ hf
  split
  · rw [logRaw_apart]; rfl
  · split
    · rw [logRaw_apart]; rfl
    · rfl

theorem countStatus_apart (cls code : Nat) (s : State) : apartLog (s.countStatus cls code) = apartLog s := by
  unfold State.countStatus
  dsimp only
  repeat' split
  all_goals rfl

theorem logVerdict_apart (e : Event) (src detail sub : Nat) (s : State) :
    apartLog (s.logVerdict e src detail sub).1 = apartLog s := by
  have h0 := (countStatus_apart e.info.1 e.info.2 (s.logCoalesced e.info.1 src e.info.2 detail)).trans
    (logCoalesced_apart e.info.1 src e.info.2 detail s)
  unfold State.logVerdict
  dsimp only
  split
  · split
    · exact (logRaw_apart _ _ _ _ _).trans h0
    · exact h0
  · exact h0

theorem note_apart (e : Event) (src detail : Nat) (s : State) : apartLog (s.note e src detail) = apartLog s :=
  logVerdict_apart e src detail 0 s

@[simp] theorem note_fuses (e : Event) (src d : Nat) (s : State) : (s.note e src d).fuses = s.fuses := by
  have h := congrArg State.fuses (note_apart e src d s)
  exact h
@[simp] theorem logVerdict_fuses (e : Event) (src d sub : Nat) (s : State) : (s.logVerdict e src d sub).1.fuses = s.fuses := by
  have h := congrArg State.fuses (logVerdict_apart e src d sub s)
  exact h
@[simp] theorem note_dev (e : Event) (src d : Nat) (s : State) : (s.note e src d).dev = s.dev := by
  have h := congrArg State.dev (note_apart e src d s)
  exact h
@[simp] theorem logVerdict_dev (e : Event) (src d sub : Nat) (s : State) : (s.logVerdict e src d sub).1.dev = s.dev := by
  have h := congrArg State.dev (logVerdict_apart e src d sub s)
  exact h
@[simp] theorem note_clock (e : Event) (src d : Nat) (s : State) : (s.note e src d).clock = s.clock := by
  have h := congrArg State.clock (note_apart e src d s)
  exact h
@[simp] theorem logVerdict_clock (e : Event) (src d sub : Nat) (s : State) : (s.logVerdict e src d sub).1.clock = s.clock := by
  have h := congrArg State.clock (logVerdict_apart e src d sub s)
  exact h
@[simp] theorem note_mer (e : Event) (src d : Nat) (s : State) : (s.note e src d).mer = s.mer := by
  have h := congrArg State.mer (note_apart e src d s)
  exact h
@[simp] theorem logVerdict_mer (e : Event) (src d sub : Nat) (s : State) : (s.logVerdict e src d sub).1.mer = s.mer := by
  have h := congrArg State.mer (logVerdict_apart e src d sub s)
  exact h
@[simp] theorem note_mboxes (e : Event) (src d : Nat) (s : State) : (s.note e src d).mboxes = s.mboxes := by
  have h := congrArg State.mboxes (note_apart e src d s)
  exact h
@[simp] theorem logVerdict_mboxes (e : Event) (src d sub : Nat) (s : State) : (s.logVerdict e src d sub).1.mboxes = s.mboxes := by
  have h := congrArg State.mboxes (logVerdict_apart e src d sub s)
  exact h
@[simp] theorem note_job (e : Event) (src d : Nat) (s : State) : (s.note e src d).job = s.job := by
  have h := congrArg State.job (note_apart e src d s)
  exact h
@[simp] theorem logVerdict_job (e : Event) (src d sub : Nat) (s : State) : (s.logVerdict e src d sub).1.job = s.job := by
  have h := congrArg State.job (logVerdict_apart e src d sub s)
  exact h
@[simp] theorem note_sealSt (e : Event) (src d : Nat) (s : State) : (s.note e src d).sealSt = s.sealSt := by
  have h := congrArg State.sealSt (note_apart e src d s)
  exact h
@[simp] theorem logVerdict_sealSt (e : Event) (src d sub : Nat) (s : State) : (s.logVerdict e src d sub).1.sealSt = s.sealSt := by
  have h := congrArg State.sealSt (logVerdict_apart e src d sub s)
  exact h
@[simp] theorem note_cores (e : Event) (src d : Nat) (s : State) : (s.note e src d).cores = s.cores := by
  have h := congrArg State.cores (note_apart e src d s)
  exact h
@[simp] theorem logVerdict_cores (e : Event) (src d sub : Nat) (s : State) : (s.logVerdict e src d sub).1.cores = s.cores := by
  have h := congrArg State.cores (logVerdict_apart e src d sub s)
  exact h
@[simp] theorem note_coreMap (e : Event) (src d : Nat) (s : State) : (s.note e src d).coreMap = s.coreMap := by
  have h := congrArg State.coreMap (note_apart e src d s)
  exact h
@[simp] theorem logVerdict_coreMap (e : Event) (src d sub : Nat) (s : State) : (s.logVerdict e src d sub).1.coreMap = s.coreMap := by
  have h := congrArg State.coreMap (logVerdict_apart e src d sub s)
  exact h
@[simp] theorem note_repairs (e : Event) (src d : Nat) (s : State) : (s.note e src d).repairs = s.repairs := by
  have h := congrArg State.repairs (note_apart e src d s)
  exact h
@[simp] theorem logVerdict_repairs (e : Event) (src d sub : Nat) (s : State) : (s.logVerdict e src d sub).1.repairs = s.repairs := by
  have h := congrArg State.repairs (logVerdict_apart e src d sub s)
  exact h
@[simp] theorem note_hubs (e : Event) (src d : Nat) (s : State) : (s.note e src d).hubs = s.hubs := by
  have h := congrArg State.hubs (note_apart e src d s)
  exact h
@[simp] theorem logVerdict_hubs (e : Event) (src d sub : Nat) (s : State) : (s.logVerdict e src d sub).1.hubs = s.hubs := by
  have h := congrArg State.hubs (logVerdict_apart e src d sub s)
  exact h
@[simp] theorem note_stacks (e : Event) (src d : Nat) (s : State) : (s.note e src d).hbmStacks = s.hbmStacks := by
  have h := congrArg State.hbmStacks (note_apart e src d s)
  exact h
@[simp] theorem logVerdict_stacks (e : Event) (src d sub : Nat) (s : State) : (s.logVerdict e src d sub).1.hbmStacks = s.hbmStacks := by
  have h := congrArg State.hbmStacks (logVerdict_apart e src d sub s)
  exact h
@[simp] theorem note_mem (e : Event) (src d : Nat) (s : State) : (s.note e src d).mem = s.mem := by
  have h := congrArg State.mem (note_apart e src d s)
  exact h
@[simp] theorem logVerdict_mem (e : Event) (src d sub : Nat) (s : State) : (s.logVerdict e src d sub).1.mem = s.mem := by
  have h := congrArg State.mem (logVerdict_apart e src d sub s)
  exact h
@[simp] theorem note_poison (e : Event) (src d : Nat) (s : State) : (s.note e src d).poison = s.poison := by
  have h := congrArg State.poison (note_apart e src d s)
  exact h
@[simp] theorem logVerdict_poison (e : Event) (src d sub : Nat) (s : State) : (s.logVerdict e src d sub).1.poison = s.poison := by
  have h := congrArg State.poison (logVerdict_apart e src d sub s)
  exact h
@[simp] theorem note_dir (e : Event) (src d : Nat) (s : State) : (s.note e src d).dir = s.dir := by
  have h := congrArg State.dir (note_apart e src d s)
  exact h
@[simp] theorem logVerdict_dir (e : Event) (src d sub : Nat) (s : State) : (s.logVerdict e src d sub).1.dir = s.dir := by
  have h := congrArg State.dir (logVerdict_apart e src d sub s)
  exact h
@[simp] theorem note_rowSplit (e : Event) (src d : Nat) (s : State) : (s.note e src d).rowSplit = s.rowSplit := by
  have h := congrArg State.rowSplit (note_apart e src d s)
  exact h
@[simp] theorem logVerdict_rowSplit (e : Event) (src d sub : Nat) (s : State) : (s.logVerdict e src d sub).1.rowSplit = s.rowSplit := by
  have h := congrArg State.rowSplit (logVerdict_apart e src d sub s)
  exact h
@[simp] theorem note_links (e : Event) (src d : Nat) (s : State) : (s.note e src d).links = s.links := by
  have h := congrArg State.links (note_apart e src d s)
  exact h
@[simp] theorem logVerdict_links (e : Event) (src d sub : Nat) (s : State) : (s.logVerdict e src d sub).1.links = s.links := by
  have h := congrArg State.links (logVerdict_apart e src d sub s)
  exact h
@[simp] theorem note_ports (e : Event) (src d : Nat) (s : State) : (s.note e src d).ports = s.ports := by
  have h := congrArg State.ports (note_apart e src d s)
  exact h
@[simp] theorem logVerdict_ports (e : Event) (src d sub : Nat) (s : State) : (s.logVerdict e src d sub).1.ports = s.ports := by
  have h := congrArg State.ports (logVerdict_apart e src d sub s)
  exact h
@[simp] theorem note_router (e : Event) (src d : Nat) (s : State) : (s.note e src d).router = s.router := by
  have h := congrArg State.router (note_apart e src d s)
  exact h
@[simp] theorem logVerdict_router (e : Event) (src d sub : Nat) (s : State) : (s.logVerdict e src d sub).1.router = s.router := by
  have h := congrArg State.router (logVerdict_apart e src d sub s)
  exact h
@[simp] theorem note_gws (e : Event) (src d : Nat) (s : State) : (s.note e src d).gws = s.gws := by
  have h := congrArg State.gws (note_apart e src d s)
  exact h
@[simp] theorem logVerdict_gws (e : Event) (src d sub : Nat) (s : State) : (s.logVerdict e src d sub).1.gws = s.gws := by
  have h := congrArg State.gws (logVerdict_apart e src d sub s)
  exact h
@[simp] theorem note_survey (e : Event) (src d : Nat) (s : State) : (s.note e src d).survey = s.survey := by
  have h := congrArg State.survey (note_apart e src d s)
  exact h
@[simp] theorem logVerdict_survey (e : Event) (src d sub : Nat) (s : State) : (s.logVerdict e src d sub).1.survey = s.survey := by
  have h := congrArg State.survey (logVerdict_apart e src d sub s)
  exact h
@[simp] theorem note_topo (e : Event) (src d : Nat) (s : State) : (s.note e src d).topo = s.topo := by
  have h := congrArg State.topo (note_apart e src d s)
  exact h
@[simp] theorem logVerdict_topo (e : Event) (src d sub : Nat) (s : State) : (s.logVerdict e src d sub).1.topo = s.topo := by
  have h := congrArg State.topo (logVerdict_apart e src d sub s)
  exact h
@[simp] theorem note_power (e : Event) (src d : Nat) (s : State) : (s.note e src d).power = s.power := by
  have h := congrArg State.power (note_apart e src d s)
  exact h
@[simp] theorem logVerdict_power (e : Event) (src d sub : Nat) (s : State) : (s.logVerdict e src d sub).1.power = s.power := by
  have h := congrArg State.power (logVerdict_apart e src d sub s)
  exact h
@[simp] theorem note_dump (e : Event) (src d : Nat) (s : State) : (s.note e src d).dump = s.dump := by
  have h := congrArg State.dump (note_apart e src d s)
  exact h
@[simp] theorem logVerdict_dump (e : Event) (src d sub : Nat) (s : State) : (s.logVerdict e src d sub).1.dump = s.dump := by
  have h := congrArg State.dump (logVerdict_apart e src d sub s)
  exact h
@[simp] theorem note_sec (e : Event) (src d : Nat) (s : State) : (s.note e src d).sec = s.sec := by
  have h := congrArg State.sec (note_apart e src d s)
  exact h
@[simp] theorem logVerdict_sec (e : Event) (src d sub : Nat) (s : State) : (s.logVerdict e src d sub).1.sec = s.sec := by
  have h := congrArg State.sec (logVerdict_apart e src d sub s)
  exact h
@[simp] theorem note_mgmt (e : Event) (src d : Nat) (s : State) : (s.note e src d).mgmt = s.mgmt := by
  have h := congrArg State.mgmt (note_apart e src d s)
  exact h
@[simp] theorem logVerdict_mgmt (e : Event) (src d sub : Nat) (s : State) : (s.logVerdict e src d sub).1.mgmt = s.mgmt := by
  have h := congrArg State.mgmt (logVerdict_apart e src d sub s)
  exact h
@[simp] theorem note_free (e : Event) (src d : Nat) (s : State) : (s.note e src d).free = s.free := by
  have h := congrArg State.free (note_apart e src d s)
  exact h
@[simp] theorem logVerdict_free (e : Event) (src d sub : Nat) (s : State) : (s.logVerdict e src d sub).1.free = s.free := by
  have h := congrArg State.free (logVerdict_apart e src d sub s)
  exact h
@[simp] theorem note_pending (e : Event) (src d : Nat) (s : State) : (s.note e src d).pending = s.pending := by
  have h := congrArg State.pending (note_apart e src d s)
  exact h
@[simp] theorem logVerdict_pending (e : Event) (src d sub : Nat) (s : State) : (s.logVerdict e src d sub).1.pending = s.pending := by
  have h := congrArg State.pending (logVerdict_apart e src d sub s)
  exact h

theorem enter_apart (d : DevState) (s : State) : apartLog (s.enter d) = apartLog (if s.dev.state = d then s else s.onDev fun v =>
    { v with state := d, stateChanges := satInc v.stateChanges, heldCause := if d = .held then v.heldCause else 0 }) := by
  unfold State.enter
  split
  · rfl
  · exact note_apart _ _ _ _

/-- Entering a state: the state is entered, the change counted, and HELD's cause cleared elsewhere (R389, R390). -/
@[simp] theorem enter_dev (d : DevState) (s : State) : (s.enter d).dev = if s.dev.state = d then s.dev else
    { s.dev with state := d, stateChanges := satInc s.dev.stateChanges, heldCause := if d = .held then s.dev.heldCause else 0 } := by
  have h := congrArg State.dev (enter_apart d s)
  refine h.trans ?_
  unfold apartLog
  split <;> rfl
@[simp] theorem enter_fuses (d : DevState) (s : State) : (s.enter d).fuses = s.fuses := by
  unfold State.enter; split <;> simp
@[simp] theorem hold_fuses (c : Nat) (s : State) : (s.hold c).fuses = s.fuses := by
  simp [State.hold]
@[simp] theorem enter_clock (d : DevState) (s : State) : (s.enter d).clock = s.clock := by
  unfold State.enter; split <;> simp
@[simp] theorem hold_clock (c : Nat) (s : State) : (s.hold c).clock = s.clock := by
  simp [State.hold]
@[simp] theorem enter_mer (d : DevState) (s : State) : (s.enter d).mer = s.mer := by
  unfold State.enter; split <;> simp
@[simp] theorem hold_mer (c : Nat) (s : State) : (s.hold c).mer = s.mer := by
  simp [State.hold]
@[simp] theorem enter_mboxes (d : DevState) (s : State) : (s.enter d).mboxes = s.mboxes := by
  unfold State.enter; split <;> simp
@[simp] theorem hold_mboxes (c : Nat) (s : State) : (s.hold c).mboxes = s.mboxes := by
  simp [State.hold]
@[simp] theorem enter_job (d : DevState) (s : State) : (s.enter d).job = s.job := by
  unfold State.enter; split <;> simp
@[simp] theorem hold_job (c : Nat) (s : State) : (s.hold c).job = s.job := by
  simp [State.hold]
@[simp] theorem enter_sealSt (d : DevState) (s : State) : (s.enter d).sealSt = s.sealSt := by
  unfold State.enter; split <;> simp
@[simp] theorem hold_sealSt (c : Nat) (s : State) : (s.hold c).sealSt = s.sealSt := by
  simp [State.hold]
@[simp] theorem enter_cores (d : DevState) (s : State) : (s.enter d).cores = s.cores := by
  unfold State.enter; split <;> simp
@[simp] theorem hold_cores (c : Nat) (s : State) : (s.hold c).cores = s.cores := by
  simp [State.hold]
@[simp] theorem enter_coreMap (d : DevState) (s : State) : (s.enter d).coreMap = s.coreMap := by
  unfold State.enter; split <;> simp
@[simp] theorem hold_coreMap (c : Nat) (s : State) : (s.hold c).coreMap = s.coreMap := by
  simp [State.hold]
@[simp] theorem enter_repairs (d : DevState) (s : State) : (s.enter d).repairs = s.repairs := by
  unfold State.enter; split <;> simp
@[simp] theorem hold_repairs (c : Nat) (s : State) : (s.hold c).repairs = s.repairs := by
  simp [State.hold]
@[simp] theorem enter_hubs (d : DevState) (s : State) : (s.enter d).hubs = s.hubs := by
  unfold State.enter; split <;> simp
@[simp] theorem hold_hubs (c : Nat) (s : State) : (s.hold c).hubs = s.hubs := by
  simp [State.hold]
@[simp] theorem enter_stacks (d : DevState) (s : State) : (s.enter d).hbmStacks = s.hbmStacks := by
  unfold State.enter; split <;> simp
@[simp] theorem hold_stacks (c : Nat) (s : State) : (s.hold c).hbmStacks = s.hbmStacks := by
  simp [State.hold]
@[simp] theorem enter_mem (d : DevState) (s : State) : (s.enter d).mem = s.mem := by
  unfold State.enter; split <;> simp
@[simp] theorem hold_mem (c : Nat) (s : State) : (s.hold c).mem = s.mem := by
  simp [State.hold]
@[simp] theorem enter_poison (d : DevState) (s : State) : (s.enter d).poison = s.poison := by
  unfold State.enter; split <;> simp
@[simp] theorem hold_poison (c : Nat) (s : State) : (s.hold c).poison = s.poison := by
  simp [State.hold]
@[simp] theorem enter_dir (d : DevState) (s : State) : (s.enter d).dir = s.dir := by
  unfold State.enter; split <;> simp
@[simp] theorem hold_dir (c : Nat) (s : State) : (s.hold c).dir = s.dir := by
  simp [State.hold]
@[simp] theorem enter_rowSplit (d : DevState) (s : State) : (s.enter d).rowSplit = s.rowSplit := by
  unfold State.enter; split <;> simp
@[simp] theorem hold_rowSplit (c : Nat) (s : State) : (s.hold c).rowSplit = s.rowSplit := by
  simp [State.hold]
@[simp] theorem enter_links (d : DevState) (s : State) : (s.enter d).links = s.links := by
  unfold State.enter; split <;> simp
@[simp] theorem hold_links (c : Nat) (s : State) : (s.hold c).links = s.links := by
  simp [State.hold]
@[simp] theorem enter_ports (d : DevState) (s : State) : (s.enter d).ports = s.ports := by
  unfold State.enter; split <;> simp
@[simp] theorem hold_ports (c : Nat) (s : State) : (s.hold c).ports = s.ports := by
  simp [State.hold]
@[simp] theorem enter_router (d : DevState) (s : State) : (s.enter d).router = s.router := by
  unfold State.enter; split <;> simp
@[simp] theorem hold_router (c : Nat) (s : State) : (s.hold c).router = s.router := by
  simp [State.hold]
@[simp] theorem enter_gws (d : DevState) (s : State) : (s.enter d).gws = s.gws := by
  unfold State.enter; split <;> simp
@[simp] theorem hold_gws (c : Nat) (s : State) : (s.hold c).gws = s.gws := by
  simp [State.hold]
@[simp] theorem enter_survey (d : DevState) (s : State) : (s.enter d).survey = s.survey := by
  unfold State.enter; split <;> simp
@[simp] theorem hold_survey (c : Nat) (s : State) : (s.hold c).survey = s.survey := by
  simp [State.hold]
@[simp] theorem enter_topo (d : DevState) (s : State) : (s.enter d).topo = s.topo := by
  unfold State.enter; split <;> simp
@[simp] theorem hold_topo (c : Nat) (s : State) : (s.hold c).topo = s.topo := by
  simp [State.hold]
@[simp] theorem enter_power (d : DevState) (s : State) : (s.enter d).power = s.power := by
  unfold State.enter; split <;> simp
@[simp] theorem hold_power (c : Nat) (s : State) : (s.hold c).power = s.power := by
  simp [State.hold]
@[simp] theorem enter_dump (d : DevState) (s : State) : (s.enter d).dump = s.dump := by
  unfold State.enter; split <;> simp
@[simp] theorem hold_dump (c : Nat) (s : State) : (s.hold c).dump = s.dump := by
  simp [State.hold]
@[simp] theorem enter_sec (d : DevState) (s : State) : (s.enter d).sec = s.sec := by
  unfold State.enter; split <;> simp
@[simp] theorem hold_sec (c : Nat) (s : State) : (s.hold c).sec = s.sec := by
  simp [State.hold]
@[simp] theorem enter_mgmt (d : DevState) (s : State) : (s.enter d).mgmt = s.mgmt := by
  unfold State.enter; split <;> simp
@[simp] theorem hold_mgmt (c : Nat) (s : State) : (s.hold c).mgmt = s.mgmt := by
  simp [State.hold]
@[simp] theorem enter_free (d : DevState) (s : State) : (s.enter d).free = s.free := by
  unfold State.enter; split <;> simp
@[simp] theorem hold_free (c : Nat) (s : State) : (s.hold c).free = s.free := by
  simp [State.hold]
@[simp] theorem enter_pending (d : DevState) (s : State) : (s.enter d).pending = s.pending := by
  unfold State.enter; split <;> simp
@[simp] theorem hold_pending (c : Nat) (s : State) : (s.hold c).pending = s.pending := by
  simp [State.hold]

/-- HELD with its cause (R389). -/
@[simp] theorem hold_state (c : Nat) (s : State) : (s.hold c).dev.state = .held ∧ (s.hold c).dev.heldCause = BitVec.ofNat 8 c := by
  simp only [State.hold, onDev_dev, enter_dev]
  split <;> simp_all

theorem enter_first (d : DevState) (s : State) : KeepsFirst s (s.enter d) := by
  unfold State.enter
  split
  · exact KeepsFirst.refl s
  · exact fun e he => note_first _ _ _ _ e he

theorem hold_first (c : Nat) (s : State) : KeepsFirst s (s.hold c) := enter_first _ s

/-! ## Outcomes -/

/-- The end of every command keeps the queue and the fuses, and all else as the meaning left it. -/
theorem Only.commit {l : List Part} {s t : State} (h : Only l s t) : Only l s (committed s t) := by
  intro p hp
  have := h p hp
  cases p <;> simp_all [Keeps, State.byteAt]

@[simp] theorem committed_byteAt (s t : State) (k : Nat) : (committed s t).byteAt k = t.byteAt k := rfl
@[simp] theorem committed_mbox (s t : State) (m : Nat) : (committed s t).mbox m = t.mbox m := rfl
@[simp] theorem committed_core (s t : State) (p : Nat) : (committed s t).core p = t.core p := rfl
@[simp] theorem committed_hub (s t : State) (h : Nat) : (committed s t).hub h = t.hub h := rfl
@[simp] theorem committed_stack (s t : State) (i : Nat) : (committed s t).stack i = t.stack i := rfl
@[simp] theorem committed_link (s t : State) (n : Nat) : (committed s t).link n = t.link n := rfl
@[simp] theorem committed_port (s t : State) (q : Nat) : (committed s t).port q = t.port q := rfl
@[simp] theorem committed_gw (s t : State) (g : Nat) : (committed s t).gw g = t.gw g := rfl
@[simp] theorem committed_logged (e : Event) (src d : Nat) (r s t : State) : Logged e src d s (committed r t) ↔ Logged e src d s t := Iff.rfl
@[simp] theorem committed_first (r s t : State) : KeepsFirst s (committed r t) ↔ KeepsFirst s t := Iff.rfl

/-- A meaning that ends in `commit` answers a next state. -/
theorem gives_commit {i : Instr} {s t : State} {P : State → Prop} (h : exec i s = commit s t)
    (hp : P (committed s t)) : Gives i s P :=
  ⟨_, h, hp⟩

/-! ## Time -/

theorem advance_only (n : Nat) (s : State) : Only [.clock] s (s.advance n) := by
  intro p hp; cases p <;> simp_all [Keeps, State.byteAt, State.advance]

@[simp] theorem advance_uptime (n : Nat) (s : State) : (s.advance n).clock.uptime = s.clock.uptime + n := rfl
/-- The counter counts plain nanoseconds while nothing slews it. -/
theorem advance_meridian_steady (n : Nat) (s : State) (hg : s.mer.gain s.clock.uptime n = 0) (h0 : 0 ≤ s.clock.phase)
    (h1 : s.clock.phase < 100000000) : (s.advance n).clock.meridian = s.clock.meridian + n := by
  have : (s.advance n).clock.meridian = ((s.clock.meridian : Int) + n + (s.clock.phase + s.mer.gain s.clock.uptime n) / 100000000).toNat := rfl
  rw [this, hg, Int.add_zero, Int.ediv_eq_zero_of_lt h0 h1]
  omega
@[simp] theorem advance_energy (n : Nat) (s : State) : (s.advance n).clock.energy = s.clock.energy := rfl

/-! ## Completions -/

theorem onMboxes_only (f : Table Mailbox → Table Mailbox) (s : State) : Only [.mboxes] s (s.onMboxes f) := by
  intro p hp; cases p <;> simp_all [Keeps, State.byteAt]

theorem onMbox_only (m : Nat) (f : Mailbox → Mailbox) (s : State) : Only [.mboxes] s (s.onMbox m f) :=
  onMboxes_only _ s

theorem hostWrite_only (a : BitVec 64) (d : Bytes) (s : State) : Only [.emitted] s (s.hostWrite a d) := by
  intro p hp; cases p <;> simp_all [Keeps, State.hostWrite, State.byteAt]

theorem signal_only (m : Nat) (s : State) : Only completing s (s.signal m) := by
  unfold State.signal
  refine Only.ite ?_ (Only.refl _ s)
  exact ((onMbox_only m _ s).mono (by decide)).trans ((interrupt_only _ _ _).mono (by decide))

theorem putCompletion_only (m : Nat) (c : Completion) (s : State) : Only completing s (s.putCompletion m c) := by
  unfold State.putCompletion
  dsimp only
  refine Only.trans ?_ (signal_only m _)
  have h : Only completing s (((s.hostWrite c.buffer c.output).emit
      (.completion m (BitVec.ofNat 64 ((s.mbox m).cmpBase.toNat / 64 * 64 + 16 * ((s.mbox m).cmpTail.toNat % 2 ^ (s.mbox m).cmpLog2.toNat)))
        c.tag c.status c.detail))) :=
    ((hostWrite_only _ _ s).mono (by decide)).trans ((emit_only _ _).mono (by decide))
  have g := fun f => h.trans ((onMbox_only m f _).mono (m := completing) (by decide))
  exact Only.ite ((g _).trans ((hostWrite_only _ _ _).mono (by decide))) (g _)

theorem writeCompletion_only (m : Nat) (c : Completion) (s : State) : Only completing s (s.writeCompletion m c) :=
  Only.ite (Only.refl _ s) (putCompletion_only m c s)

theorem complete_only (m : Nat) (tag : Word) (status detail : Nat) (b : BitVec 64) (o : Bytes) (s : State) :
    Only completing s (s.complete m tag status detail b o) := by
  have g := fun f => (onMbox_only m f s).mono (m := completing) (by decide)
  unfold State.complete
  dsimp only
  split
  · exact g _
  · split
    · exact Only.refl _ s
    · exact Only.ite ((g _).trans (writeCompletion_only _ _ _)) ((g _).trans ((onMbox_only m _ _).mono (by decide)))

end Sys2Proof
end

