-- ==== Sys2Proof/Laws/Mailbox.lean ====
section
/-! SUPPORT. What a fetched mailbox command does: its body runs once on the state in which its work has begun, and its completion is
written. -/
namespace Sys2Proof

open Sys2Proof.Machine

@[simp] theorem onMbox_mbox (m : Nat) (f : Mailbox → Mailbox) (s : State) : (s.onMbox m f).mbox m = f (s.mbox m) := by
  simp [State.mbox, State.onMbox, Tab.modify]

theorem onMbox_mbox_other {m n : Nat} (h : n ≠ m) (f : Mailbox → Mailbox) (s : State) : (s.onMbox m f).mbox n = s.mbox n := by
  simp [State.mbox, State.onMbox, Tab.modify, Tab.get_set_other _ _ h]

@[simp] theorem emit_mbox (m : Nat) (e : Emission) (s : State) : (s.emit e).mbox m = s.mbox m := rfl
@[simp] theorem hostWrite_mbox (m : Nat) (a : BitVec 64) (d : Bytes) (s : State) : (s.hostWrite a d).mbox m = s.mbox m := rfl
@[simp] theorem hostWrite_cofin (a : BitVec 64) (d : Bytes) (s : State) : (s.hostWrite a d).cofin = s.cofin := rfl
@[simp] theorem hostWrite_emitted (a : BitVec 64) (d : Bytes) (s : State) :
    (s.hostWrite a d).emitted = (hostPieces a d).reverse ++ s.emitted := rfl
@[simp] theorem interrupt_mbox (m : Nat) (a : BitVec 64) (d : Word) (s : State) : (s.interrupt a d).mbox m = s.mbox m := by
  unfold State.interrupt; split <;> rfl

theorem mem_hostWrite {x : Emission} {s : State} (a : BitVec 64) (d : Bytes) (h : x ∈ s.emitted) : x ∈ (s.hostWrite a d).emitted := by
  simp [h]

theorem mem_interrupt {x : Emission} {s : State} (a : BitVec 64) (d : Word) (h : x ∈ s.emitted) : x ∈ (s.interrupt a d).emitted := by
  unfold State.interrupt; split <;> simp [h]

theorem mem_signal {x : Emission} {s : State} (m : Nat) (h : x ∈ s.emitted) : x ∈ (s.signal m).emitted := by
  unfold State.signal
  dsimp only
  split
  · exact mem_interrupt _ _ h
  · exact h

/-- The completion interrupt changes no ring register (R395). -/
theorem signal_rings (m : Nat) (s : State) :
    ((s.signal m).mbox m).inFlight = (s.mbox m).inFlight ∧ ((s.signal m).mbox m).cmpTail = (s.mbox m).cmpTail ∧
      ((s.signal m).mbox m).completed = (s.mbox m).completed ∧ ((s.signal m).mbox m).dropped = (s.mbox m).dropped := by
  unfold State.signal
  dsimp only
  split <;> simp

/-- Writing a completion: one entry more, after its output (R395). -/
theorem putCompletion_written (m : Nat) (k : Completion) (s : State) :
    ((s.putCompletion m k).mbox m).inFlight = (s.mbox m).inFlight ∧
      ((s.putCompletion m k).mbox m).cmpTail = (s.mbox m).cmpTail + 1 ∧
      ((s.putCompletion m k).mbox m).completed = satInc (s.mbox m).completed ∧
      ((s.putCompletion m k).mbox m).dropped = (s.mbox m).dropped ∧
      (∃ a, Emission.completion m a k.tag k.status k.detail ∈ (s.putCompletion m k).emitted) ∧
      ∀ e ∈ hostPieces k.buffer k.output, e ∈ (s.putCompletion m k).emitted := by
  unfold State.putCompletion
  dsimp only
  refine ⟨?_, ?_, ?_, ?_, ⟨BitVec.ofNat 64 ((s.mbox m).cmpBase.toNat / 64 * 64 + 16 * ((s.mbox m).cmpTail.toNat % 2 ^ (s.mbox m).cmpLog2.toNat)),
    mem_signal _ ?_⟩, fun e he => mem_signal _ ?_⟩
  · rw [(signal_rings m _).1]; split <;> simp
  · rw [(signal_rings m _).2.1]; split <;> simp
  · rw [(signal_rings m _).2.2.1]; split <;> simp
  · rw [(signal_rings m _).2.2.2]; split <;> simp
  · split
    · exact mem_hostWrite _ _ (by simp)
    · simp
  · split
    · exact mem_hostWrite _ _ (by simp [he])
    · simp [he]

/-- Completing the one command in flight: its completion is written, and nothing else is in flight (R395). -/
theorem complete_completed {m : Nat} {c : Cmd} {s : State} {f : InFlightCmd} (hf : (s.mbox m).inFlight = [f]) (ht : f.tag = c.tag)
    (hd : (s.mbox m).dropped = []) (hu : s.cofin.up = true) (hr : (s.mbox m).noRoom = false) (status detail : Nat) (out : Bytes) (b : BitVec 64)
    (hb : out ≠ [] → b = c.buffer) : Completed m c status out s (s.complete m c.tag status detail b out) := by
  unfold State.complete
  have hn : (((s.onMbox m fun b => { b with inFlight := dropFirst (fun f => f.tag = c.tag) b.inFlight }).mbox m)).noRoom = false := by
    rw [onMbox_mbox]; exact hr
  simp only [hd, hf, ht, List.find?_nil, List.find?_cons, decide_true, hu, onMbox_cofin, if_true, State.writeCompletion, hn, Bool.false_eq_true, if_false]
  obtain ⟨h1, h2, h3, _, ⟨a, h4⟩, h5⟩ := putCompletion_written m
    { tag := c.tag, status := BitVec.ofNat 16 status, detail := BitVec.ofNat 80 detail, output := out, buffer := b
      noIrq := f.flags.getLsbD 1 } (s.onMbox m fun b => { b with inFlight := dropFirst (fun f => f.tag = c.tag) b.inFlight })
  refine ⟨?_, ?_, ?_, ⟨a, _, h4⟩, fun e he => ?_⟩
  · rw [h1]; simp [hf, dropFirst, ht]
  · rw [h2]; simp
  · rw [h3]; simp
  · by_cases ho : out = []
    · subst ho; simp [hostPieces, chunks] at he
    · rw [← hb ho] at he; exact h5 e he

/-- The state in which the work of a fetched command runs: its in-flight entry is marked begun. -/
theorem command_fetched {m op : Nat} {c : Cmd} {s : State} (h : Fetched m op c s) (reads : Bool) (body : State → State) :
    ∃ u f, s.command m op c reads body = body u ∧ Only [.mboxes] s u ∧ (u.mbox m).inFlight = [f] ∧ f.tag = c.tag ∧
      (u.mbox m).dropped = [] ∧ u.cofin = s.cofin ∧ (u.mbox m).noRoom = false ∧ (u.mbox m).cmpTail = (s.mbox m).cmpTail ∧
      (u.mbox m).completed = (s.mbox m).completed ∧ (∀ n, n ≠ m → u.mbox n = s.mbox n) := by
  obtain ⟨⟨f, hf, ht, ho, hb⟩, hd, hm, _, hr⟩ := h
  refine ⟨s.onMbox m fun b => { b with inFlight := markBegun c.tag b.inFlight, dropped := markBegun c.tag b.dropped }, { f with begun := true },
    ?_, onMbox_only _ _ _, ?_, ht, ?_, rfl, by rw [onMbox_mbox]; exact hr, ?_, ?_, fun n hn => onMbox_mbox_other hn _ _⟩
  · simp [State.command, Mailbox.waits, State.work, hf, hd, ht, ho, hb, hm]
  · simp [hf, markBegun, ht, hb]
  · simp [hd, markBegun]
  · simp
  · simp

/-! ## Fields that completing a command leaves, one by one -/

/-- The state without the parts that completing touches. -/
def apartHost (s : State) : State := { s with mboxes := [], cofin := {}, emitted := [] }

theorem interrupt_apartHost (a : BitVec 64) (d : Word) (s : State) : apartHost (s.interrupt a d) = apartHost s := by
  unfold State.interrupt; split <;> rfl

theorem hostWrite_apartHost (a : BitVec 64) (d : Bytes) (s : State) : apartHost (s.hostWrite a d) = apartHost s := rfl

theorem onMbox_apartHost (m : Nat) (f : Mailbox → Mailbox) (s : State) : apartHost (s.onMbox m f) = apartHost s := rfl

theorem signal_apartHost (m : Nat) (s : State) : apartHost (s.signal m) = apartHost s := by
  unfold State.signal
  dsimp only
  split
  · exact (interrupt_apartHost _ _ _).trans (onMbox_apartHost m _ s)
  · rfl

theorem putCompletion_apartHost (m : Nat) (c : Completion) (s : State) : apartHost (s.putCompletion m c) = apartHost s := by
  have g : ∀ e f, apartHost (((s.hostWrite c.buffer c.output).emit e).onMbox m f) = apartHost s := fun e f =>
    (onMbox_apartHost m f _).trans (hostWrite_apartHost c.buffer c.output s)
  unfold State.putCompletion
  dsimp only
  refine (signal_apartHost m _).trans ?_
  split
  · exact (hostWrite_apartHost _ _ _).trans (g _ _)
  · exact g _ _

theorem writeCompletion_apartHost (m : Nat) (c : Completion) (s : State) : apartHost (s.writeCompletion m c) = apartHost s := by
  unfold State.writeCompletion
  split
  · rfl
  · exact putCompletion_apartHost m c s

theorem complete_apartHost (m : Nat) (tag : Word) (status detail : Nat) (b : BitVec 64) (o : Bytes) (s : State) :
    apartHost (s.complete m tag status detail b o) = apartHost s := by
  unfold State.complete
  dsimp only
  split
  · rfl
  · split
    · rfl
    · split
      · exact (writeCompletion_apartHost _ _ _).trans (onMbox_apartHost m _ s)
      · rfl

@[simp] theorem complete_fuses (m : Nat) (tag : Word) (st d : Nat) (b : BitVec 64) (o : Bytes) (s : State) :
    (s.complete m tag st d b o).fuses = s.fuses := by
  have h := congrArg State.fuses (complete_apartHost m tag st d b o s)
  exact h
@[simp] theorem complete_dev (m : Nat) (tag : Word) (st d : Nat) (b : BitVec 64) (o : Bytes) (s : State) :
    (s.complete m tag st d b o).dev = s.dev := by
  have h := congrArg State.dev (complete_apartHost m tag st d b o s)
  exact h
@[simp] theorem complete_clock (m : Nat) (tag : Word) (st d : Nat) (b : BitVec 64) (o : Bytes) (s : State) :
    (s.complete m tag st d b o).clock = s.clock := by
  have h := congrArg State.clock (complete_apartHost m tag st d b o s)
  exact h
@[simp] theorem complete_mer (m : Nat) (tag : Word) (st d : Nat) (b : BitVec 64) (o : Bytes) (s : State) :
    (s.complete m tag st d b o).mer = s.mer := by
  have h := congrArg State.mer (complete_apartHost m tag st d b o s)
  exact h
@[simp] theorem complete_log (m : Nat) (tag : Word) (st d : Nat) (b : BitVec 64) (o : Bytes) (s : State) :
    (s.complete m tag st d b o).log = s.log := by
  have h := congrArg State.log (complete_apartHost m tag st d b o s)
  exact h
@[simp] theorem complete_faults (m : Nat) (tag : Word) (st d : Nat) (b : BitVec 64) (o : Bytes) (s : State) :
    (s.complete m tag st d b o).faults = s.faults := by
  have h := congrArg State.faults (complete_apartHost m tag st d b o s)
  exact h
@[simp] theorem complete_regs (m : Nat) (tag : Word) (st d : Nat) (b : BitVec 64) (o : Bytes) (s : State) :
    (s.complete m tag st d b o).regs = s.regs := by
  have h := congrArg State.regs (complete_apartHost m tag st d b o s)
  exact h
@[simp] theorem complete_job (m : Nat) (tag : Word) (st d : Nat) (b : BitVec 64) (o : Bytes) (s : State) :
    (s.complete m tag st d b o).job = s.job := by
  have h := congrArg State.job (complete_apartHost m tag st d b o s)
  exact h
@[simp] theorem complete_sealSt (m : Nat) (tag : Word) (st d : Nat) (b : BitVec 64) (o : Bytes) (s : State) :
    (s.complete m tag st d b o).sealSt = s.sealSt := by
  have h := congrArg State.sealSt (complete_apartHost m tag st d b o s)
  exact h
@[simp] theorem complete_cores (m : Nat) (tag : Word) (st d : Nat) (b : BitVec 64) (o : Bytes) (s : State) :
    (s.complete m tag st d b o).cores = s.cores := by
  have h := congrArg State.cores (complete_apartHost m tag st d b o s)
  exact h
@[simp] theorem complete_coreMap (m : Nat) (tag : Word) (st d : Nat) (b : BitVec 64) (o : Bytes) (s : State) :
    (s.complete m tag st d b o).coreMap = s.coreMap := by
  have h := congrArg State.coreMap (complete_apartHost m tag st d b o s)
  exact h
@[simp] theorem complete_repairs (m : Nat) (tag : Word) (st d : Nat) (b : BitVec 64) (o : Bytes) (s : State) :
    (s.complete m tag st d b o).repairs = s.repairs := by
  have h := congrArg State.repairs (complete_apartHost m tag st d b o s)
  exact h
@[simp] theorem complete_hubs (m : Nat) (tag : Word) (st d : Nat) (b : BitVec 64) (o : Bytes) (s : State) :
    (s.complete m tag st d b o).hubs = s.hubs := by
  have h := congrArg State.hubs (complete_apartHost m tag st d b o s)
  exact h
@[simp] theorem complete_stacks (m : Nat) (tag : Word) (st d : Nat) (b : BitVec 64) (o : Bytes) (s : State) :
    (s.complete m tag st d b o).hbmStacks = s.hbmStacks := by
  have h := congrArg State.hbmStacks (complete_apartHost m tag st d b o s)
  exact h
@[simp] theorem complete_mem (m : Nat) (tag : Word) (st d : Nat) (b : BitVec 64) (o : Bytes) (s : State) :
    (s.complete m tag st d b o).mem = s.mem := by
  have h := congrArg State.mem (complete_apartHost m tag st d b o s)
  exact h
@[simp] theorem complete_poison (m : Nat) (tag : Word) (st d : Nat) (b : BitVec 64) (o : Bytes) (s : State) :
    (s.complete m tag st d b o).poison = s.poison := by
  have h := congrArg State.poison (complete_apartHost m tag st d b o s)
  exact h
@[simp] theorem complete_dir (m : Nat) (tag : Word) (st d : Nat) (b : BitVec 64) (o : Bytes) (s : State) :
    (s.complete m tag st d b o).dir = s.dir := by
  have h := congrArg State.dir (complete_apartHost m tag st d b o s)
  exact h
@[simp] theorem complete_rowSplit (m : Nat) (tag : Word) (st d : Nat) (b : BitVec 64) (o : Bytes) (s : State) :
    (s.complete m tag st d b o).rowSplit = s.rowSplit := by
  have h := congrArg State.rowSplit (complete_apartHost m tag st d b o s)
  exact h
@[simp] theorem complete_links (m : Nat) (tag : Word) (st d : Nat) (b : BitVec 64) (o : Bytes) (s : State) :
    (s.complete m tag st d b o).links = s.links := by
  have h := congrArg State.links (complete_apartHost m tag st d b o s)
  exact h
@[simp] theorem complete_ports (m : Nat) (tag : Word) (st d : Nat) (b : BitVec 64) (o : Bytes) (s : State) :
    (s.complete m tag st d b o).ports = s.ports := by
  have h := congrArg State.ports (complete_apartHost m tag st d b o s)
  exact h
@[simp] theorem complete_router (m : Nat) (tag : Word) (st d : Nat) (b : BitVec 64) (o : Bytes) (s : State) :
    (s.complete m tag st d b o).router = s.router := by
  have h := congrArg State.router (complete_apartHost m tag st d b o s)
  exact h
@[simp] theorem complete_gws (m : Nat) (tag : Word) (st d : Nat) (b : BitVec 64) (o : Bytes) (s : State) :
    (s.complete m tag st d b o).gws = s.gws := by
  have h := congrArg State.gws (complete_apartHost m tag st d b o s)
  exact h
@[simp] theorem complete_survey (m : Nat) (tag : Word) (st d : Nat) (b : BitVec 64) (o : Bytes) (s : State) :
    (s.complete m tag st d b o).survey = s.survey := by
  have h := congrArg State.survey (complete_apartHost m tag st d b o s)
  exact h
@[simp] theorem complete_topo (m : Nat) (tag : Word) (st d : Nat) (b : BitVec 64) (o : Bytes) (s : State) :
    (s.complete m tag st d b o).topo = s.topo := by
  have h := congrArg State.topo (complete_apartHost m tag st d b o s)
  exact h
@[simp] theorem complete_power (m : Nat) (tag : Word) (st d : Nat) (b : BitVec 64) (o : Bytes) (s : State) :
    (s.complete m tag st d b o).power = s.power := by
  have h := congrArg State.power (complete_apartHost m tag st d b o s)
  exact h
@[simp] theorem complete_integ (m : Nat) (tag : Word) (st d : Nat) (b : BitVec 64) (o : Bytes) (s : State) :
    (s.complete m tag st d b o).integ = s.integ := by
  have h := congrArg State.integ (complete_apartHost m tag st d b o s)
  exact h
@[simp] theorem complete_dump (m : Nat) (tag : Word) (st d : Nat) (b : BitVec 64) (o : Bytes) (s : State) :
    (s.complete m tag st d b o).dump = s.dump := by
  have h := congrArg State.dump (complete_apartHost m tag st d b o s)
  exact h
@[simp] theorem complete_sec (m : Nat) (tag : Word) (st d : Nat) (b : BitVec 64) (o : Bytes) (s : State) :
    (s.complete m tag st d b o).sec = s.sec := by
  have h := congrArg State.sec (complete_apartHost m tag st d b o s)
  exact h
@[simp] theorem complete_mgmt (m : Nat) (tag : Word) (st d : Nat) (b : BitVec 64) (o : Bytes) (s : State) :
    (s.complete m tag st d b o).mgmt = s.mgmt := by
  have h := congrArg State.mgmt (complete_apartHost m tag st d b o s)
  exact h
@[simp] theorem complete_free (m : Nat) (tag : Word) (st d : Nat) (b : BitVec 64) (o : Bytes) (s : State) :
    (s.complete m tag st d b o).free = s.free := by
  have h := congrArg State.free (complete_apartHost m tag st d b o s)
  exact h
@[simp] theorem complete_pending (m : Nat) (tag : Word) (st d : Nat) (b : BitVec 64) (o : Bytes) (s : State) :
    (s.complete m tag st d b o).pending = s.pending := by
  have h := congrArg State.pending (complete_apartHost m tag st d b o s)
  exact h

end Sys2Proof
end

