-- ==== Sys2Proof/Machine/Mapping.lean ====
section
/-! DEFINITION. What the manual computes beside the commands, as functions of its own numbers: the tree and the slices of a canonical
reduce (R270 to R277), the pipeline and its memory (R279 to R281), banks of the tile store (R74, R75), fibre positions (R17, R18), status
classes (R410), and the figures of matrix and HBM throughput (R103, R195). A plan follows them by the macro-ops it is made of; no command
reads them. -/
namespace Sys2Proof.Machine

/-! ## The canonical reduce (R270 to R274) -/

/-- The node of `level` over the values of the shards `v`, `v + 1`, ..., `v + 2^level − 1` (R127, R274). -/
def reduceNode {α : Type} (add : α → α → α) (value : Nat → α) (v : Nat) : Nat → α
  | 0 => value v
  | level + 1 => add (reduceNode add value v level) (reduceNode add value (v + 2 ^ level) level)

/-- The counter's carry: while a node of the level is parked, it is the lower child (R270). -/
def parkNode {α : Type} (add : α → α → α) (x : α) : List (Option α) → List (Option α)
  | [] => [some x]
  | none :: t => some x :: t
  | some low :: t => none :: parkNode add (add low x) t

/-- The parked nodes, by level, after the first `n` shards of a module have entered in increasing index (R270). -/
def reduceCounter {α : Type} (add : α → α → α) (value : Nat → α) (v0 : Nat) : Nat → List (Option α)
  | 0 => []
  | n + 1 => parkNode add (value (v0 + n)) (reduceCounter add value v0 n)

/-- A vector of `n` elements can be cut into the whole slices of R272. -/
def slicesWhole (n vLog2 : Nat) : Bool := n % (16 * 2 ^ vLog2) == 0

/-- First element of slice `v` and the elements in it (R272). -/
def sliceRange (n vLog2 v : Nat) : Nat × Nat := (v * (n / 2 ^ vLog2), n / 2 ^ vLog2)

/-- The slices that the module of first shard `v0` keeps when network level `level` has run, with 2^s shards a module (R272). -/
def keptSlices (vLog2 s v0 level : Nat) : List Nat :=
  (List.range (2 ^ vLog2)).filter fun i => (List.range (level + 1)).all fun b => decide (b < s) || natBit i b == natBit v0 b

/-! ## Rings and groups (R276, R277) -/

/-- The modules of a ring of `n` in the order in which they add to a chunk: the one after its owner begins (R276). -/
def ringOrder (n owner : Nat) : List Nat := (List.range n).map fun i => (owner + 1 + i) % n

/-- A chunk's sum around the ring: incoming + own at each module (R276). -/
def ringSum (n owner : Nat) (value : Nat → Nat) : Nat :=
  match (ringOrder n owner).map value with
  | [] => 0
  | x :: t => t.foldl fAdd x

/-- The columns of the first matrix of a layer pair that member `k` of `g` holds (R277). -/
def memberColumns (n g k : Nat) : Nat × Nat := (k * n / g, (k + 1) * n / g)

/-! ## Load of the busiest link (R275, R276) -/

/-- Bytes on the busiest link at one level: `dist` times the bytes sent, half of that where the level is split over both bearings. -/
def levelLoad (dist sent : Nat) (split : Bool) : Nat := if split then dist * sent / 2 else dist * sent

/-- A halving reduce-scatter from `held` bytes on, over levels given by distance and split. -/
def halvingLoad : List (Nat × Bool) → Nat → Nat
  | [], _ => 0
  | (dist, split) :: t, held => levelLoad dist (held / 2) split + halvingLoad t (held / 2)

/-- The cheapest ladder of a single data axis of 2^k modules, its last level split. -/
def cheapLadder (k : Nat) : List (Nat × Bool) := (List.range k).map fun i => (2 ^ i, i + 1 == k)

/-- A bidirectional ring reduce-scatter over `n` modules. -/
def ringLoad (n held : Nat) : Nat := (n - 1) * held / (2 * n)

/-- Time of a level in ns, for slots of `slot` bytes at `rate` bytes a ns: its load and the fill of `dist` hops. -/
def levelNs (dist sent slot rate : Nat) : Nat := dist * sent / rate + dist * (slot / rate + 67)

/-! ## The pipeline (R279 to R281) -/

/-- Micro-batches of a cell in a step. -/
def microBatches (s u : Nat) : Nat := 2 ^ s * u

/-- The shard of micro-batch `i`. -/
def microBatchShard (v0 u i : Nat) : Nat := v0 + i / u

/-- When stage `σ` of `p` runs its forwards and its input gradients, and the idle units between them that weight gradients fill, in units
of one micro-batch. -/
def stageTimes (p m σ : Nat) : (Nat × Nat) × (Nat × Nat) × Nat :=
  ((σ, σ + m), (2 * p - 2 + m - σ, 2 * p - 2 + 2 * m - σ), 2 * (p - 1 - σ))

/-- Units of a step, for m ≥ 2p − 2. -/
def stepUnits (p m : Nat) : Nat := 3 * m + p - 1

/-- Bytes a stage needs (R281): owned state four times, working copy, gradients, activations, and the rest: code, constants and arenas. -/
def stageNeed (owned working gradient s m activation rest : Nat) : Nat := 4 * owned + working + (s + 1) * gradient + m * activation + rest

/-- The need fits the module beside a dump region of 256 MiB. -/
def stageFits (need : Nat) : Bool := decide (need + 256 * 2 ^ 20 ≤ 1488 * 2 ^ 30)

/-! ## The tile store's banks (R74, R75) -/

/-- The bank of the line that holds byte offset `a`. -/
def tileBank (a : Nat) : Nat := (a / 64 ^^^ a / 2048) % 32

/-- Array cycles in which the banks serve the accesses of one cycle, given by their offsets: one a bank and cycle. -/
def bankCycles (offsets : List Nat) : Nat := (List.range 32).foldl (fun n b => max n (offsets.filter fun a => tileBank a = b).length) 0

/-! ## Fibres (R17, R18) -/

/-- Connector and position of a link's fibre. -/
def fibrePosition (link lane : Nat) (transmit : Bool) : Nat × Nat :=
  (link / 2, if transmit then 4 * (link % 2) + lane + 1 else 16 - 4 * (link % 2) - lane)

/-- Where a Method B trunk brings the fibre at a position. -/
def methodB (position : Nat) : Nat := 17 - position

/-! ## Figures -/

/-- Matrix work done and the work of the cycles taken, whose ratio is a core's efficiency (R103). -/
def matrixEfficiency (m k n : Nat) : Nat × Nat := (m * k * n, max m 256 * (64 * ceilDiv k 64) * (128 * ceilDiv n 128))

/-- Sustained share of the usable HBM bandwidth in ‰: alternating reads and writes or not, and the stack warm or not (R195). -/
def sustainedShare (alternating warm : Bool) : Nat :=
  match alternating, warm with
  | false, false => 940
  | false, true => 905
  | true, false => 860
  | true, true => 825

/-- The class of a status, by its high byte (R410). -/
inductive StatusClass where
  | ok
  | argument
  | state
  | resource
  | integrity
  | security
  | fabric
  | timeout
  deriving DecidableEq, Repr

def statusClass (status : BitVec 16) : Option StatusClass :=
  match status.toNat / 256 with
  | 0 => if status = 0 then some .ok else none
  | 1 => some .argument
  | 2 => some .state
  | 3 => some .resource
  | 4 => some .integrity
  | 5 => some .security
  | 6 => some .fabric
  | 7 => some .timeout
  | _ => none

end Sys2Proof.Machine
end

