-- ==== Sys2Proof/Laws/Mapping.lean ====
section
/-! SUPPORT. The binary counter of R270 ends with the node of the canonical tree (R274), and a Method B trunk brings each transmit fibre to
the receive fibre of the same lane (R18). -/
namespace Sys2Proof.Machine

variable {α : Type} (add : α → α → α) (value : Nat → α)

/-- The parked nodes after `n` more shards, from `v` on, have entered. -/
def enterShards (v : Nat) : Nat → List (Option α) → List (Option α)
  | 0, l => l
  | n + 1, l => parkNode add (value (v + n)) (enterShards v n l)

theorem reduceCounter_eq_enterShards (v n : Nat) : reduceCounter add value v n = enterShards add value v n [] := by
  induction n with
  | zero => rfl
  | succ n ih => rw [reduceCounter, enterShards, ih]

theorem enterShards_add (v a b : Nat) (l : List (Option α)) :
    enterShards add value v (a + b) l = enterShards add value (v + a) b (enterShards add value v a l) := by
  induction b with
  | zero => rfl
  | succ b ih => rw [← Nat.add_assoc, enterShards, enterShards, ih, Nat.add_assoc]

/-- 2^k shards above `k` empty levels form one node of level `k`, which carries into the levels above. -/
theorem enterShards_full (k v : Nat) (t : List (Option α)) :
    enterShards add value v (2 ^ k) (List.replicate k none ++ t) = List.replicate k none ++ parkNode add (reduceNode add value v k) t := by
  induction k generalizing v t with
  | zero => rfl
  | succ k ih =>
    have h : List.replicate (k + 1) none ++ t = List.replicate k none ++ (none :: t) := by
      rw [List.replicate_succ', List.append_assoc, List.singleton_append]
    rw [h, Nat.pow_succ, Nat.mul_two, enterShards_add, ih, parkNode, ih, parkNode, List.replicate_succ', List.append_assoc,
      List.singleton_append, reduceNode]

/-- The first 2^k shards leave their node parked at level `k` and nothing below. -/
theorem enterShards_first (k v : Nat) :
    enterShards add value v (2 ^ k) [] = List.replicate k none ++ [some (reduceNode add value v k)] := by
  induction k generalizing v with
  | zero => rfl
  | succ k ih =>
    rw [Nat.pow_succ, Nat.mul_two, enterShards_add, ih, enterShards_full, parkNode, parkNode, List.replicate_succ', List.append_assoc,
      List.singleton_append, reduceNode]

/-- The counter of a module that hosts 2^s shards parks the canonical node of its shards at level `s` (R270, R274). -/
theorem reduceCounter_node (s v0 : Nat) :
    reduceCounter add value v0 (2 ^ s) = List.replicate s none ++ [some (reduceNode add value v0 s)] := by
  rw [reduceCounter_eq_enterShards, enterShards_first]

/-- A node of level `k + 1` is the sum of the two nodes that halve its shards: the tree does not depend on who computes them (R274). -/
theorem reduceNode_succ (v k : Nat) :
    reduceNode add value v (k + 1) = add (reduceNode add value v k) (reduceNode add value (v + 2 ^ k) k) := rfl

/-- Method B takes the transmit fibre of a lane to the receive fibre of the same lane of a link of the same parity (R18). -/
theorem methodB_transmit (a b lane : Nat) (h : a % 2 = b % 2) (hl : lane < 4) :
    methodB (fibrePosition a lane true).2 = (fibrePosition b lane false).2 := by
  simp only [methodB, fibrePosition, if_true, if_false, Bool.false_eq_true, h]
  omega

end Sys2Proof.Machine
end

