-- ==== Sys2Proof/Laws/Memory.lean ====
section
/-! SUPPORT. Every operation that writes memory keeps its canonical form, what a write leaves readable, and the memory after reset. -/
namespace Sys2Proof

open Sys2Proof.Machine

theorem reset_mem_wf : Memory.wf State.reset.mem = true := rfl

/-! ## The canonical form -/

theorem each_mem {α : Type} {f : State → α → State} (h : ∀ s a, (f s a).mem = s.mem) (xs : List α) (s : State) : (s.each xs f).mem = s.mem := by
  induction xs generalizing s with
  | nil => rfl
  | cons x xs ih => exact (ih _).trans (h s x)

theorem detourRequest_mem (k : Nat) (data : Bytes) (w : Bool) (s : State) : (s.detourRequest k data w).mem = s.mem := by
  unfold State.detourRequest
  dsimp only
  split
  · refine (each_mem ?_ _ _).trans rfl
    exact fun _ _ => rfl
  · rfl

theorem rewritten_mem (h c lo hi : Nat) (s : State) : (s.rewritten h c lo hi).mem = s.mem := by
  unfold State.rewritten
  dsimp only
  exact (apply_ite State.mem _ _ _).trans (ite_self _)

theorem hbmWritten_mem (k : Nat) (data : Bytes) (s : State) : (s.hbmWritten k data).mem = s.mem := by
  unfold State.hbmWritten
  split
  · exact (detourRequest_mem _ _ _ _).trans (rewritten_mem _ _ _ _ _)
  · rfl

theorem putBytes_wf (k : Nat) (data : Bytes) (s : State) (h : Memory.wf s.mem = true) :
    Memory.wf (s.putBytes k data).mem = true := by
  unfold State.putBytes
  rw [hbmWritten_mem]
  exact Tab.wf_setRun data k h

theorem clearBytes_wf (k n : Nat) (s : State) (h : Memory.wf s.mem = true) : Memory.wf (s.clearBytes k n).mem = true :=
  Tab.wf_clear k (k + n) h

theorem foldl_set_wf (f : Host.Cell → Nat) (cells : List Host.Cell) :
    ∀ m : List Host.Cell, Memory.wf m = true → Memory.wf (cells.foldl (fun m c => Tab.set 0 (f c) c.2 m) m) = true := by
  induction cells with
  | nil => exact fun _ h => h
  | cons c cells ih => exact fun m h => ih _ (Tab.wf_set (f c) c.2 h)

theorem copyBytes_wf (src dst n : Nat) (s : State) (h : Memory.wf s.mem = true) :
    Memory.wf (s.copyBytes src dst n).mem = true :=
  foldl_set_wf _ _ _ (clearBytes_wf dst n s h)

theorem clearHubCaches_wf (s : State) (h : Memory.wf s.mem = true) : Memory.wf s.clearHubCaches.mem = true :=
  Tab.wf_clear _ _ h

/-! ## Reading after a write -/

theorem Tab.get_setRun_inside {α : Type} [DecidableEq α] (d : α) (vs : List α) :
    ∀ (k i : Nat) (t : Table α) (hi : i < vs.length), Tab.get d (k + i) (Tab.setRun d k vs t) = vs[i] := by
  induction vs with
  | nil => intro k i t hi; exact absurd hi (Nat.not_lt_zero i)
  | cons v vs ih =>
    intro k i t hi
    cases i with
    | zero =>
      rw [Nat.add_zero, Tab.setRun, Tab.get_setRun_outside d vs (k + 1) k _ (Or.inl (Nat.lt_succ_self k))]
      exact Tab.get_set_same d v k t
    | succ i =>
      have := ih (k + 1) i (Tab.set d k v t) (Nat.lt_of_succ_lt_succ hi)
      rw [show k + (i + 1) = k + 1 + i by omega, Tab.setRun, this]
      rfl

/-- A byte that a write covers reads as the byte written. -/
theorem putBytes_inside (k i : Nat) (data : Bytes) (s : State) (hi : i < data.length) :
    (s.putBytes k data).byteAt (k + i) = data[i] := by
  unfold State.byteAt State.putBytes
  rw [hbmWritten_mem]
  exact Tab.get_setRun_inside 0 data k i s.mem hi

/-- A byte outside a write reads as before. -/
theorem putBytes_outside (k j : Nat) (data : Bytes) (s : State) (h : j < k ∨ k + data.length ≤ j) :
    (s.putBytes k data).byteAt j = s.byteAt j := by
  unfold State.byteAt State.putBytes
  rw [hbmWritten_mem]
  exact Tab.get_setRun_outside 0 data k j s.mem h

/-! ## Parts that a write touches -/

theorem onHub_only (h : Nat) (f : Hub → Hub) (s : State) : Only [.hubs] s (s.onHub h f) := by
  intro p hp; cases p <;> simp_all [Keeps, State.byteAt]

theorem onStack_only (n : Nat) (f : Stack → Stack) (s : State) : Only [.hbmStacks] s (s.onStack n f) := by
  intro p hp; cases p <;> simp_all [Keeps, State.byteAt]

/-- A request that waits touches its hub and the fill counts of the hub's memory. -/
theorem detourRequest_only (k : Nat) (data : Bytes) (w : Bool) (s : State) : Only [.hubs, .hbmStacks] s (s.detourRequest k data w) := by
  unfold State.detourRequest
  dsimp only
  refine Only.ite (?_) (Only.refl _ s)
  exact ((onHub_only _ _ s).mono (by decide)).trans (Only.each (fun _ _ => (onStack_only _ _ _).mono (by decide)) _ _)

theorem rewritten_only (h c lo hi : Nat) (s : State) : Only [.hubs] s (s.rewritten h c lo hi) := by
  unfold State.rewritten
  dsimp only
  exact Only.ite (Only.refl _ s) (onHub_only _ _ s)

theorem hbmWritten_only (k : Nat) (data : Bytes) (s : State) : Only [.hubs, .hbmStacks] s (s.hbmWritten k data) := by
  unfold State.hbmWritten
  exact Only.ite (((rewritten_only _ _ _ _ s).mono (by decide)).trans (detourRequest_only _ _ _ _)) (Only.refl _ s)

/-- Writing bytes touches memory, poison, and the hub that serves them with the fill counts of its memory. -/
theorem putBytes_only (k : Nat) (data : Bytes) (s : State) : Only [.mem, .poison, .hubs, .hbmStacks] s (s.putBytes k data) := by
  refine Only.trans ?_ ((hbmWritten_only _ _ _).mono (by decide))
  intro p hp; cases p <;> simp_all [Keeps]

theorem clearBytes_only (k n : Nat) (s : State) : Only [.mem, .poison] s (s.clearBytes k n) := by
  intro p hp; cases p <;> simp_all [Keeps, State.clearBytes]

end Sys2Proof
end

