-- ==== Sys2Proof/Tests/States.lean ====
section
/-! SUPPORT. Small states for the tests: each is State.reset with the fields a test needs. -/
namespace Sys2Proof.Tests

open Sys2Proof.Machine

/-- Standby power, firmware running, and the Cofin link up. -/
def served : State :=
  { State.reset with
    dev := { standbyOn := true, firmware := true, heldCause := 3, startStep := 4 }
    cofin := { up := true, gen := 3 } }

/-- In `d`, with the main domain on, the counter Locked at the root and 120 cores in use. -/
def inState (d : DevState) : State :=
  { served with
    dev := { standbyOn := true, firmware := true, mainOn := true, state := d, heldCause := 0, startStep := 9,
             stepEnds := [0, 5, 10, 20, 50, 80, 200, 300] }
    mer := { lock := 2, root := true, depth := 0 }
    coreMap := (List.range 128).filter fun p => p % 16 ≠ 15 }

def ready : State := inState .ready

/-- Parameters of the job that the tests bind: frames of 10 µs from tick 100,000 on. -/
def binding : Bind :=
  { period := 10000, guardNs := 200, baseTick := 100000, jobTag := 7, horizon := 128, retries := 2, abortSeal := 4, hash := 0
    cartouche := false }

/-- A job is bound. -/
def running : State := { inState .running with job := { bind := some binding } }

/-- Command `op` waits in mailbox `m` under tag 9. -/
def sent (m op : Nat) (s : State) : State :=
  s.onMboxes fun _ => [(m, { enable := true, inFlight := [⟨9, BitVec.ofNat 16 op, 0, 1000000000, false⟩] })]

/-- The descriptor fields of that command, with an output buffer of `n` bytes. -/
def cmd (n : Nat := 0) (byte : Byte := 0) : Cmd := { tag := 9, mboxByte := byte, length := BitVec.ofNat 32 n }

theorem sent_fetched (m op n : Nat) (byte : Byte) (s : State) (hop : op < 65536) (hs : s.cofin.up = true) :
    Fetched m op (cmd n byte) (sent m op s) := by
  have h : (sent m op s).mbox m = { enable := true, inFlight := [⟨9, BitVec.ofNat 16 op, 0, 1000000000, false⟩] } := by
    simp [sent, State.mbox, State.onMboxes, Tab.get]
  refine ⟨⟨⟨9, BitVec.ofNat 16 op, 0, 1000000000, false⟩, ?_, rfl, ?_, rfl⟩, ?_, rfl, hs, ?_⟩
  · rw [h]
  · simp [Nat.mod_eq_of_lt hop]
  · rw [h]
  · rw [h]; rfl

/-- The clauses of a `Fetched` hypothesis, from a state with the link up. -/
theorem fetched (m op : Nat) (s : State) (n : Nat := 0) (byte : Byte := 0) (hop : op < 65536 := by decide)
    (hs : s.cofin.up = true := by rfl) : Fetched m op (cmd n byte) (sent m op s) :=
  sent_fetched m op n byte s hop hs

theorem quiet (s : State) (h1 : s.log.bursts = [] := by rfl) (h2 : s.faults.counts = [] := by rfl)
    (h3 : s.faults.policies = [] := by rfl) : Quiet s := ⟨h1, h2, h3⟩

end Sys2Proof.Tests
end

