-- ==== Sys2Proof/Tests/Files.lean ====
section
/-! SUPPORT. Plan files, a firmware image, a licence and a configuration record for the tests, built from the layouts of the spec. -/
namespace Sys2Proof.Tests

set_option Elab.async false

open Sys2Proof.Machine

/-! ## Plan files (R131 to R134, R150) -/

/-- Runs of a byte. -/
def zeros (n : Nat) : Bytes := List.replicate n 0
def ones (n : Nat) : Bytes := List.replicate n 0xFF

/-- A section: type, role, entry count, bytes. -/
abbrev Sec := Nat × Nat × Nat × Bytes

/-- The section table's entries, for sections that begin at `o` on, each padded to 64 bytes. -/
def secTable : Nat → List Sec → Bytes
  | _, [] => []
  | o, (t, r, n, d) :: rest => leBytes 2 t ++ leBytes 2 r ++ leBytes 4 o ++ leBytes 4 d.length ++ leBytes 4 n ++ secTable (o + roundUp d.length 64) rest

/-- Padded to a multiple of 64 bytes. -/
def padded (b : Bytes) : Bytes := b ++ zeros (roundUp b.length 64 - b.length)

/-- The section table and the sections. -/
def planBody (l : List Sec) : Bytes :=
  padded (secTable (roundUp (16 * l.length) 64) l) ++ l.flatMap fun s => padded s.2.2.2

/-- A level-3 file with one role. -/
def planFile (hash flags window : Nat) (l : List Sec) : Bytes :=
  let body := planBody l
  leBytes 4 0x48435448 ++ leBytes 1 3 ++ leBytes 1 flags ++ leBytes 1 1 ++ leBytes 1 1 ++ leBytes 4 body.length ++ leBytes 2 l.length ++
    leBytes 1 0 ++ leBytes 1 window ++ leBytes 32 hash ++ zeros 16 ++ body

/-- A macro-op without operands. -/
def plainOp (oc : Nat) : Bytes := leBytes 2 oc ++ zeros 6 ++ leBytes 8 0xFFFF ++ leBytes 8 0xFFFF ++ leBytes 8 0xFFFF

/-- Core 0 runs one block, whose strand 0 begins at its first macro-op. -/
def codeSec (ops : Bytes) : Sec := (1, 0, 0, leBytes 4 480 ++ ones (4 * 119) ++ leBytes 4 0 ++ ones (4 * 63) ++ ops)

/-- One FP32 tile of 1 by 16 at the start of the tile store. -/
def tileSec : Sec := (2, 0xFFFF, 1, zeros 10 ++ leBytes 2 15 ++ leBytes 4 64 ++ zeros 16)

def scoreHash : Nat :=
  0x7381077f51d81b6c5a25cb6d74ff6ad20c86a4c398eecd86a78cebff1c224a25

/-- A scoreboard plan: strand 0 of core 0 holds NOP and FRAME_END. -/
def scoreFile : Bytes := planFile scoreHash 1 0 [codeSec (plainOp 0 ++ plainOp 4), tileSec]

/-- Variant `c`: one frame, in which strand 0 issues its one macro-op. -/
def variantRec (c : Nat) : Bytes :=
  leBytes 4 c ++ leBytes 4 1 ++ leBytes 4 1 ++ leBytes 4 0 ++ zeros 32 ++ leBytes 6 0 ++ leBytes 2 1

/-- SHA-256 of the bodies. -/
def tokenHash : Nat :=
  0xcc0efb80d462b73fcd2fe529edc521c264e8b6a23fbdb159cee09c189e4543b

/-- A token-mode plan of one phase, the step's last: strand 0 of core 0 holds a NOP. -/
def tokenFile : Bytes :=
  planFile tokenHash 4 1 [codeSec (plainOp 0), tileSec, (3, 0, 0, zeros 32), (6, 0xFFFF, 2, variantRec 0 ++ variantRec 3)]


/-- The plan that the file holds. -/
def tokenPlan : Plan :=
  let v := fun c => ({ contour := c, frames := 1, cuts := [⟨0, 0, 0, 0, 1⟩], slots := [], est := [0, 0, 0, 0], predNs := 0 } : Variant)
  { level := 3, scoreboard := false, twin := false, lastPhase := true, numrev := 1, roles := 1, roleAxis := 0, sealFrames := 1, vLog2 := 0
    spmLog2 := 0, profile := 0, bodyHash := leBytes 32 tokenHash, tiles := [{ cols := 16 }]
    code := [{ cores := some 0 :: List.replicate 119 none, blocks := [⟨some 0 :: List.replicate 63 none, [⟨0, {}⟩]⟩], tokens := [List.replicate 32 0] }]
    circuits := [], width := none, variants := [v 0, v 3], constants := none, updates := [], vectors := [], slack := [], roleMap := [] }

/-- The value of a check, or `d`. -/
def valueOf {α : Type} (x : Chk α) (d : α) : α :=
  match x with
  | .ok a => a
  | .error _ => d

/-- The check refuses nothing. -/
def passes {α : Type} : Chk α → Bool
  | .ok _ => true
  | .error _ => false

/-- The scoreboard plan. -/
def scorePlan : Plan :=
  { tokenPlan with
    scoreboard := true, lastPhase := false, sealFrames := 0, bodyHash := leBytes 32 scoreHash, variants := []
    code := [{ cores := some 0 :: List.replicate 119 none, blocks := [⟨some 0 :: List.replicate 63 none, [⟨0, {}⟩, ⟨4, {}⟩]⟩], tokens := [] }] }

theorem ok_unit {x : Chk Unit} (h : passes x = true) : x = .ok () := by
  cases x with
  | ok a => rfl
  | error e => exact absurd h Bool.false_ne_true

theorem ok_of {p : Plan} {x : Chk Plan} (h : (match x with | .ok r => decide (r = p) | .error _ => false) = true) : x = .ok p := by
  cases x with
  | ok a => simp at h; rw [h]
  | error e => exact absurd h Bool.false_ne_true

theorem tokenFile_parses : parsePlan tokenFile = .ok tokenPlan := ok_of (by decide +kernel)

theorem scoreFile_parses : parsePlan scoreFile = .ok scorePlan := ok_of (by decide +kernel)

/-! ## Signed records (R416, R417, R423) -/

/-- The signature by private key 1 with nonce 1: the public key is the base point, r its x, and s the digest plus r. -/
def signedBy1 (digest : Bytes) : Bytes :=
  let r := p256Base.1 % p256Order
  leBytes 32 r ++ leBytes 32 ((beNat digest + r) % p256Order)

/-- An image without payload. -/
def imageHead : Bytes :=
  leBytes 4 0x57463454 ++ leBytes 2 1 ++ zeros 2 ++ leBytes 4 7 ++ zeros 20 ++ sha256 []

/-- The image, signed. -/
def image : Bytes := imageHead ++ signedBy1 (sha256 imageHead) ++ zeros 128

/-- Boot ROM waits for firmware; the keys are those of private key 1. -/
def blank : State :=
  { State.reset with fuses := { firmwareKey := p256Base, licenceKey := p256Base }, dev := { standbyOn := true, startStep := 4 }, cofin := { up := true, gen := 3 } }

/-- A licence of KIND 2 for the module of that state. -/
def licenceHead : Bytes :=
  leBytes 4 0x434C5154 ++ leBytes 1 1 ++ leBytes 1 2 ++ zeros 6 ++ leBytes 32 blank.fuses.identityFp.toNat ++ zeros 84
def licence : Bytes := licenceHead ++ signedBy1 (sha256 licenceHead)


theorem leNat_zeros (n : Nat) : leNat (zeros n) = 0 := by
  induction n with
  | zero => rfl
  | succ n ih => simp only [zeros, List.replicate_succ, leNat] at *; rw [ih]; rfl

theorem field_zeros (h : Bytes) (n o k : Nat) (ho : h.length ≤ o) : field (h ++ zeros n) o k = 0 := by
  obtain ⟨i, rfl⟩ := Nat.exists_eq_add_of_le ho
  rw [field, List.drop_append, List.drop_eq_nil_of_le (Nat.le_add_right _ _), Nat.add_sub_cancel_left, List.nil_append, zeros,
    List.drop_replicate, List.take_replicate]
  exact leNat_zeros _

/-- A configuration without port section, and without a defect: `d` is the digest of its `n` bytes of zeros. -/
def configHead (d : Bytes) : Bytes := leBytes 4 0x46435154 ++ leBytes 1 1 ++ zeros 3 ++ leBytes 4 2112 ++ leBytes 4 5 ++ d ++ zeros 16

def configOf (d : Bytes) (n : Nat) : Bytes := configHead d ++ zeros n

def configRecord : Bytes := configOf (sha256 (zeros 2048)) 2048

def noDefect : Defect := { rows := List.replicate 4 none, cols := List.replicate 4 none }

theorem configHead_length (d : Bytes) (h : d.length = 32) : (configHead d).length = 64 := by
  simp [configHead, leBytes, zeros, h]

theorem config_defect (d : Bytes) (n p : Nat) (h : d.length = 32) : parseDefect (configOf d n) p = noDefect := by
  have hf : ∀ o k, 64 ≤ o → field (configOf d n) o k = 0 := fun o k ho => field_zeros _ n o k (by rw [configHead_length d h]; exact ho)
  have hd : parseDefect (configOf d n) p = parseDefect (zeros 64) 0 := by
    simp (disch := omega) only [parseDefect, List.map_cons, List.map_nil, hf]
    decide
  exact hd.trans (by decide)

theorem config_drop (d : Bytes) (n : Nat) (h : d.length = 32) : (configOf d n).drop 64 = zeros n := by
  rw [configOf, ← configHead_length d h, List.drop_left]

theorem config_take (d : Bytes) (n : Nat) (h : d.length = 32) : ((configOf d n).drop 16).take 32 = d := by
  simp [configOf, configHead, leBytes, zeros, List.drop_append, h]

theorem config_fields (d : Bytes) (n : Nat) : field (configOf d n) 8 4 = 2112 ∧ field (configOf d n) 0 4 = 0x46435154 ∧ field (configOf d n) 4 1 = 1 ∧
    natBit (field (configOf d n) 5 1) 0 = false := by
  simp [configOf, configHead, leBytes, zeros, field, leNat]
  rfl

theorem digest_length : (sha256 (zeros 2048)).length = 32 := by decide +kernel

theorem config_status (d : Bytes) (n : Nat) (h : d.length = 32) (hn : n + 64 = 2112) (hd : sha256 (zeros n) = d) :
    blank.recordCheck (configOf d n) = none := by
  have h3 : (List.replicate 128 noDefect).zipIdx.any (fun e => blank.badDefect e.2 e.1) = false := by decide +kernel
  have h4 : decide (blank.usableCount (List.replicate 128 noDefect) < 120) = false := by decide +kernel
  have hm : (List.range 128).map (parseDefect (configOf d n)) = List.replicate 128 noDefect := by
    rw [funext fun p => config_defect d n p h]; decide +kernel
  have hl : (configOf d n).length = 2112 := by
    rw [configOf, List.length_append, configHead_length d h, zeros, List.length_replicate]; omega
  obtain ⟨f1, f2, f3, f4⟩ := config_fields d n
  generalize List.replicate 128 noDefect = l at *
  unfold State.recordCheck
  dsimp only
  rw [f1, f2, f3, f4, hl, hm, config_drop d n h, config_take d n h, hd, h3]
  simpa using h4

theorem configRecord_accepted : blank.recordCheck configRecord = none := config_status _ _ digest_length rfl rfl
theorem image_accepted : blank.imageCheck image = 0 := by decide +kernel

theorem licence_accepted : blank.licenceCheck licence = 0 := by decide +kernel

end Sys2Proof.Tests
end

