-- ==== Sys2Proof/Tests/Witnesses.lean ====
section
/-! SUPPORT. For every statement with hypotheses, concrete states and operands that meet the hypotheses of each clause together. -/
namespace Sys2Proof.Tests

set_option Elab.async false

open Sys2Proof.Machine

/-! ## The machine as a whole, the supply and the alert floor -/

/-- A state of the supply, with standby power off. -/
def supply (vin : Bool) : State := { State.reset with dev := { vin48 := vin } }

theorem meets_StepRunsTheFrontCommand :
    ((supply true).pending = [] ∧ (∀ e ∈ (supply true).links, e.2.sideQueue = []) ∧ (supply true).dev.vin48 = true ∧ (supply true).mer.trim = 0 ∧
        (supply true).mer.learned = 0 ∧ (supply true).mer.slew = none ∧ 0 ≤ (supply true).clock.phase ∧ (supply true).clock.phase < 100000000) ∧
      (supply false).pending = [] ∧ (∀ e ∈ (supply false).links, e.2.sideQueue = []) ∧ (supply false).dev.vin48 = false := by
  decide

theorem meets_EveryStepKeepsMemoryCanonical :
    Memory.wf ({ State.reset with mem := [(5, 1)] }).mem = true ∧
      step { State.reset with mem := [(5, 1)] } = .next { State.reset with mem := [(5, 1)], clock := { uptime := 1, meridian := 1 } } :=
  ⟨by decide, rfl⟩

theorem meets_SupplyRowsPowerAndStandby :
    (supply false).dev.vin48 = false ∧
      (supply true).dev.vin48 = true ∧ (supply true).dev.standbyOn = false ∧ (supply true).dev.startStep = 2 := by
  decide

theorem meets_ModuleResetSourcesEndInHeld :
    ready.dev.vin48 = true ∧ ready.dev.standbyOn = true ∧ ready.dump.held = none ∧ ready.dump.running = none ∧
      (10000 ≤ 10000 ∧ ready.dev.romRestart = false) ∧ 9999 < 10000 := by
  decide

/-- More than 62 V came, before or after firmware was loaded, with or without a configuration. -/
def overvolted (firmware : Bool) (config : Option ConfigRecord) : State :=
  { State.reset with dev := { standbyOn := true, overvolt := true, firmware := firmware, config := config } }

theorem meets_OvervoltageCoolantAndThermalTrip :
    (let s := overvolted false none
     s.dev.standbyOn = true ∧ s.dev.overvolt = true ∧ ¬(s.dev.state = .held ∧ s.dev.firmware = true) ∧ Quiet s ∧ (520 : Int) ≤ 520 ∧ (519 : Int) < 520) ∧
      (let s := overvolted true none
       s.dev.standbyOn = true ∧ s.dev.overvolt = true ∧ s.dev.state = .held ∧ s.dev.firmware = true ∧ (s.dev.config = none ∨ s.dev.thermalHold = true)) ∧
      (let s := overvolted true (some ⟨[], 1, false, []⟩)
       s.dev.standbyOn = true ∧ s.dev.overvolt = true ∧ s.dev.state = .held ∧ s.dev.firmware = true ∧ s.dev.config.isSome = true ∧
         s.dev.thermalHold = false) ∧
      (served.dev.standbyOn = true ∧ served.dev.overvolt = false ∧ served.dev.mainOn = false ∧ standbyDie (srcDie (.control 1)) = true ∧
        Quiet served ∧ standbyDie (srcDie (.compute 7)) = false) ∧ ready.dev.mainOn = true :=
  ⟨⟨rfl, rfl, by decide, quiet _, by decide, by decide⟩, ⟨rfl, rfl, rfl, rfl, .inl rfl⟩, by decide,
    ⟨rfl, rfl, rfl, by decide, quiet _, by decide⟩, rfl⟩

theorem meets_TemperatureReadingsFollowTheLadders :
    (ready.dev.standbyOn = true ∧ ready.dev.mainOn = true ∧ (919 : Int) < 920) ∧
      (served.dev.standbyOn = true ∧ served.dev.mainOn = false ∧ standbyDie (srcDie (.control 0)) = true) ∧
      (ready.stack 0).heat.level ≠ .critical ∧ (840 : Int) ≤ 840 := by
  decide

/-- The alert floor entered, then its one cause over. -/
def alerted : State := { ready with power := { floor := true, causes := [.pin] } }
def alertHeld : State := { ready with power := { floor := true, holdEnd := some 1000000 } }

/-- A job at contour `c`, 10 ms after start, with POWER_CAP_UNMET logged for its step. -/
def unmet (c : Nat) : State :=
  { running with clock := { uptime := 10000000 }, power := { unmetDue := true }, job := { bind := some binding, contour := c } }

theorem meets_AlertFloorIsEnteredHeldAndLeft :
    (ready.dev.standbyOn = true ∧ ready.dev.mainOn = true ∧ AlertCause.pin ≠ .capUnmet ∧ ready.power.causes = [] ∧
        ready.power.floor = false ∧ Quiet ready) ∧
      (alerted.dev.standbyOn = true ∧ alerted.dev.mainOn = true ∧ alerted.power.causes = [.pin]) ∧
      (alertHeld.dev.standbyOn = true ∧ alertHeld.dev.mainOn = true ∧ alertHeld.power.holdEnd = some 1000000 ∧
        alertHeld.power.floor = true ∧ alertHeld.job.bind = none) ∧
      ((unmet 0).dev.standbyOn = true ∧ (unmet 0).dev.mainOn = true ∧ (unmet 0).power.unmetDue = true ∧ (unmet 0).power.causes = [] ∧
        (unmet 0).power.floor = false ∧ 102 * (unmet 0).power.capW * 1000 < 100 * 4896001 ∧
        (unmet 0).power.capAt + 10000000 ≤ (unmet 0).clock.uptime ∧ (unmet 0).job.bind.isSome = true ∧ (unmet 0).job.contour < 3) ∧
      (unmet 3).power.capAt + 10000000 ≤ (unmet 3).clock.uptime ∧ (unmet 3).job.bind.isSome = true ∧ 3 ≤ (unmet 3).job.contour ∧ Quiet (unmet 3) :=
  ⟨⟨by decide, by decide, by decide, by decide, by decide, quiet _⟩, by decide, by decide, by decide, by decide, by decide, by decide, quiet _⟩

/-! ## Start-up, Cofin and the host window -/

/-- INITIALISING at start-up step `k`. -/
def starting (k : Nat) : State :=
  { served with dev := { standbyOn := true, firmware := true, state := .initialising, heldCause := 0, startStep := k } }

/-- Survey ended at step 8 and the counter is not Locked. -/
def unlocked : State :=
  { starting 8 with
    dev := { standbyOn := true, firmware := true, mainOn := true, state := .initialising, startStep := 8, surveyEnd := some 500 } }

theorem meets_StartUpStepsPowerTrainAndSurvey :
    ((starting 5).dev.state = .initialising ∧ (starting 5).dev.startStep = 5 ∧ (starting 5).fuses.disabled = [] ∧
        (starting 5).fuses.arrays = [] ∧ (starting 5).repairs = [] ∧ (∀ c, (starting 5).dev.config = some c → c.defects = [])) ∧
      ((starting 6).dev.state = .initialising ∧ (starting 6).dev.startStep = 6 ∧ (0 : Fin 32) ≠ 31) ∧
      ((starting 7).dev.state = .initialising ∧ (starting 7).dev.startStep = 7) ∧
      (unlocked.dev.state = .initialising ∧ unlocked.dev.startStep = 8 ∧ unlocked.dev.surveyEnd = some 500 ∧ unlocked.mer.lock ≠ 2 ∧
        unlocked.dev.slow = false ∧ Quiet unlocked) :=
  ⟨⟨rfl, rfl, rfl, rfl, rfl, fun c h => by simp [starting] at h⟩, by decide, by decide, rfl, rfl, rfl, by decide, rfl, quiet _⟩

/-- The Cofin link trains. -/
def training (g : CofinGen) : State := { served with cofin := { trying := some g } }

theorem meets_CofinLinkTrainsRisesAndFalls :
    (training .gen3).cofin.trying = some .gen3 ∧ (training .gen2).cofin.trying = some .gen2 ∧ ((training .gen3).mbox 6).ringError = false ∧
      served.cofin.up = true := by
  decide

/-- A mailbox in service: its ring takes one command, and its completion ring has sizes out of range. -/
def ringed : State := { ready with mboxes := [(0, { enable := true })] }

theorem meets_MailboxRingRegisters :
    (ringed.cofin.up = true ∧ ringed.dev.standbyOn = true) ∧
      ((ringed.mbox 0).enable = true ∧ (ringed.mbox 0).ringError = false) ∧
      (({ ready with mboxes := [(0, { enable := true, cmdLog2 := 4, cmpLog2 := 4 })] }).mbox 0).badSizes = false ∧
      (ready.mbox 1).enable = false ∧ (ringed.mbox 0).badSizes = true := by
  decide

/-- A ring of 16 entries that a doorbell of 17 overfills, and that a CMP_HEAD of 1 passes, written before ENABLE or after. -/
theorem meets_MailboxRingRegisters_overfull :
    let b : Mailbox := { enable := true, cmdLog2 := 4, cmpLog2 := 4 }
    b.ringError = false ∧ b.badSizes = false ∧ 2 ^ b.cmdLog2.toNat < ((17 : Word) - b.cmdHead).toNat ∧
      2 ^ b.cmpLog2.toNat < (b.cmpTail - (1 : Word)).toNat ∧
      (let u : Mailbox := { cmdLog2 := 4, cmpLog2 := 4, cmpHead := 1 }
       u.ringError = false ∧ u.badSizes = false ∧ (u.cmdTail - u.cmdHead).toNat ≤ 2 ^ u.cmdLog2.toNat ∧
         2 ^ u.cmpLog2.toNat < (u.cmpTail - u.cmpHead).toNat) := by
  decide

theorem meets_RegisterWritesAndPendingBits :
    served.cofin.up = true ∧ served.dev.standbyOn = true ∧ 55 < 56 ∧ (0xFC < 0x100 ∧ 0xFC % 4 = 0) ∧
      (0x2E0 ≤ 0x2E0 ∧ 0x2E0 < 0x1000 ∧ 0x2E0 % 4 = 0) ∧ (0x1700 ≤ 0xFFFC ∧ 0xFFFC % 4 = 0) ∧ (0x300 ≤ 0xFFF ∧ 0xFFF < 0x1000) ∧ (0x1700 ≤ 0x1700 ∧ 0x1700 < 0x2000) ∧
      (13 ≤ 13 ∧ 13 < 16) ∧ (13 ≤ 15 ∧ 15 < 16) ∧ (1 < 13 ∧ 16 ≤ 55) ∧ (2 ≠ 4 ∧ 2 ≠ 8) ∧ 0x202 % 4 ≠ 0 := by
  decide

/-- A descriptor waits in mailbox 0. -/
def posted : State := { ready with mboxes := [(0, { enable := true, cmdLog2 := 4, cmpLog2 := 4, cmdTail := 1 })] }

theorem meets_CommandFetchPutsCommandsInFlight :
    (posted.cofin.up = true ∧ posted.dev.state.serves 0 = true ∧ posted.dev.romRestart = false ∧ (posted.mbox 0).enable = true ∧
        (posted.mbox 0).ringError = false ∧ (posted.mbox 0).cmdHead ≠ (posted.mbox 0).cmdTail ∧ (posted.mbox 0).inFlight = [] ∧
        (posted.mbox 0).heldOut = [] ∧ (posted.mbox 0).dropped = [] ∧
        ((posted.mbox 0).cmpTail - (posted.mbox 0).cmpHead).toNat < 2 ^ (posted.mbox 0).cmpLog2.toNat) ∧
      (posted.exists? 0 0x0001 = true ∧ posted.allows 0x0001 = true ∧ (cmd).buffer.toNat % 64 = 0 ∧ inputLength 0x0001 ≤ (cmd).length.toNat) ∧
      posted.exists? 0 0x00FF = false := by
  decide

/-- Completions wait for their interrupt; and a command that has run out of time. -/
def unsignalled : State := { ready with mboxes := [(2, { enable := true, irqEn := true, irqDelayUs := 5, unsignalled := 1 })] }

theorem meets_CompletionDelayAndCommandTimeout :
    (unsignalled.cofin.up = true ∧ (unsignalled.mbox 2).irqEn = true ∧ 0 < (unsignalled.mbox 2).unsignalled ∧
        (unsignalled.mbox 2).irqDelayUs ≠ 0) ∧
      ((sent 0 0x0002 ready).cofin.up = true ∧ ((sent 0 0x0002 ready).mbox 0).inFlight = [⟨9, 0x0002, 0, 1000000000, false⟩] ∧
        ((sent 0 0x0002 ready).mbox 0).dropped = [] ∧ usesPartition (0x0002 : BitVec 16).toNat = false ∧
        ((sent 0 0x0002 ready).mbox 0).noRoom = false ∧ Quiet (sent 0 0x0002 ready)) :=
  ⟨by decide, by decide, by decide, by decide, by decide, by decide, quiet _⟩

/-- A dump runs. -/
def dumped : DumpRec := { trigger := .command, seq := 0, summaryOnly := false, uptime := 0, meridian := 0, state := .ready }
def dumping (d : Dump) : State := { inState .dumping with dump := { d with running := some dumped } }

theorem meets_DumpRowsCaptureHoldAndEnd :
    ((dumping {}).dump.running = some dumped ∧ dumped.unreachable.contains 5 = false ∧
        { dumped with unreachable := [5] }.unreachable.contains (5 : BitVec 12) = true) ∧
      ((dumping {}).dump.tag = none ∧ (dumping {}).dump.skipped = false ∧ (dumping {}).dump.pendingResets = [] ∧ (dumping {}).dump.hang = false ∧
        Quiet (dumping {})) ∧
      ((dumping { pendingResets := [(.partition, 0, 0)] }).dump.tag = none ∧ (dumping { pendingResets := [(.partition, 0, 0)] }).dump.skipped = false ∧
        (dumping { pendingResets := [(.partition, 0, 0)] }).dump.pendingResets = [(.partition, 0, 0)]) ∧
      (dumping { moduleHold := some 5 }).dump.moduleHold = some 5 :=
  ⟨by decide, ⟨rfl, rfl, rfl, rfl, quiet _⟩, ⟨rfl, rfl, rfl⟩, rfl⟩

/-- One core is in reset; and one burst was coalesced. -/
def resetting : State := ready.onDev fun d => { d with resets := [⟨.core, 3, 2000⟩] }
def bursting : State := { ready with log := { bursts := [⟨0x01001001, 0, 5⟩] } }

theorem meets_ResetsCompleteAndBurstsEnd :
    (resetting.dev.resets = [⟨.core, (3 : Fin 128).val, 2000⟩] ∧ resetting.dump.hang = false ∧ resetting.dump.running = none ∧
        resetting.dump.held = none) ∧
      bursting.log.bursts = [⟨0x01001001, 0, 5⟩] ∧ 4 < 5 := by
  decide

/-! ## Mailbox 0 -/

theorem meets_ResetsCompleteAndBurstsEnd_host :
    (Fetched 0 0x0002 (cmd) (sent 0 0x0002 ready) ∧ (sent 0 0x0002 ready).dump.running = none ∧ (sent 0 0x0002 ready).dump.held = none) ∧
      ((cmd).mboxByte = 0 ∧ (119 : BitVec 16).toNat < (sent 0 0x0002 ready).coreMap.length) ∧
      ((cmd (byte := 1)).mboxByte = 1 ∧ (31 : BitVec 16).toNat < 32 ∧ Fetched 0 0x0002 (cmd (byte := 1)) (sent 0 0x0002 ready)) ∧
      ((cmd (byte := 2)).mboxByte = 2 ∧ Fetched 0 0x0002 (cmd (byte := 2)) (sent 0 0x0002 ready)) ∧
      ((cmd (byte := 3)).mboxByte = 3 ∧ Fetched 0 0x0002 (cmd (byte := 3)) (sent 0 0x0002 ready)) ∧
      ((sent 0 0x0002 ready).coreMap.length ≤ (120 : BitVec 16).toNat ∧ 32 ≤ (32 : BitVec 16).toNat) ∧
      3 < (cmd (byte := 4)).mboxByte.toNat ∧ Fetched 0 0x0002 (cmd (byte := 4)) (sent 0 0x0002 ready) :=
  ⟨⟨fetched .., rfl, rfl⟩, by decide +kernel, ⟨rfl, by decide, fetched ..⟩, ⟨rfl, fetched ..⟩, ⟨rfl, fetched ..⟩,
    by decide +kernel, by decide, fetched ..⟩

theorem meets_StatusLogAndPolicyCommands :
    (Fetched 0 0x0001 (cmd 512) (sent 0 0x0001 ready) ∧
        (sent 0 0x0001 ready).identityBlock.length + (sent 0 0x0001 ready).stateBlock.length ≤ (cmd 512).length.toNat) ∧
      (Fetched 0 0x0001 (cmd 511) (sent 0 0x0001 ready) ∧
        (cmd 511).length.toNat < (sent 0 0x0001 ready).identityBlock.length + (sent 0 0x0001 ready).stateBlock.length) ∧
      Fetched 0 0x0003 (cmd 64) (sent 0 0x0003 ready) ∧ Fetched 0 0x0004 (cmd) (sent 0 0x0004 ready) ∧
      Fetched 0 0x0007 (cmd) (sent 0 0x0007 ready) ∧
      ((86400 : Word) ≠ 0 ∧ (86400 : Word).toNat ≤ 86400 ∧ (1 : Byte) ≠ 0 ∧ (4095 : BitVec 16).toNat < 4096) ∧
      ((0 : Word) = 0 ∧ 86400 < (86401 : Word).toNat) :=
  ⟨⟨fetched .., by decide +kernel⟩, ⟨fetched .., by decide +kernel⟩, fetched .., fetched .., fetched .., by decide, by decide⟩

theorem meets_MeridianSetSlewStandbyAndWake :
    (Fetched 0 0x000A (cmd) (sent 0 0x000A served) ∧ (sent 0 0x000A served).dev.firmware = true ∧
        ((sent 0 0x000A served).dev.state = .held ∨ (sent 0 0x000A served).dev.state = .initialising)) ∧
      (Fetched 0 0x000A (cmd) (sent 0 0x000A ready) ∧ (sent 0 0x000A ready).dev.state ≠ .held ∧
        (sent 0 0x000A ready).dev.state ≠ .initialising) ∧
      (Fetched 0 0x000B (cmd) (sent 0 0x000B ready) ∧ (sent 0 0x000B ready).mer.root = true ∧ (10000 : Word).toInt.natAbs ≤ 10000 ∧
        10000 < (0xFFFFD8EF : Word).toInt.natAbs) ∧
      Fetched 0 0x000B (cmd) (sent 0 0x000B served) ∧ (sent 0 0x000B served).mer.root = false :=
  ⟨⟨fetched .., rfl, .inl rfl⟩, ⟨fetched .., by decide, by decide⟩, ⟨fetched .., rfl, by decide, by decide⟩, fetched .., rfl⟩

/-- STANDBY with a configuration held. -/
def asleep (hold : Bool) : State :=
  { served with dev := { standbyOn := true, firmware := true, state := .standby, thermalHold := hold, config := some ⟨[], 1, false, []⟩ } }

theorem meets_MeridianSetSlewStandbyAndWake_standby :
    (Fetched 0 0x000C (cmd) (sent 0 0x000C ready) ∧ (sent 0 0x000C ready).job.bind = none ∧ (sent 0 0x000C ready).dump.held = none ∧
        (sent 0 0x000C ready).dump.running = none ∧ (sent 0 0x000C ready).dev.state = .ready) ∧
      (∀ hold, Fetched 0 0x000D (cmd) (sent 0 0x000D (asleep hold)) ∧ (sent 0 0x000D (asleep hold)).dev.state = .standby ∧
        (sent 0 0x000D (asleep hold)).dump.held = none ∧ (sent 0 0x000D (asleep hold)).dev.config.isSome = true ∧
        (sent 0 0x000D (asleep hold)).dev.thermalHold = hold) :=
  ⟨⟨fetched .., rfl, rfl, rfl, rfl⟩, fun _ => ⟨fetched .., rfl, rfl, rfl, rfl⟩⟩

/-- CANCEL waits in mailbox 0 under tag 9, and commands in flight in mailbox `m`; a dispatch of tag 8 has not begun. -/
def cancelling (m : Nat) (l : List InFlightCmd) : State :=
  { running with
    mboxes := [(0, { enable := true, inFlight := [⟨9, 0x000E, 0, 1000000000, false⟩] }), (m, { enable := true, inFlight := l })]
    job := { bind := some binding, dispatches := [{ slot := 0, first := 500, step := 3, phaseSeq := 0, tag := 8 }] } }

theorem cancel_fetched (m : Nat) (l : List InFlightCmd) (b : Byte) : Fetched 0 0x000E (cmd (byte := b)) (cancelling m l) :=
  ⟨⟨_, rfl, rfl, rfl, rfl⟩, rfl, rfl, rfl, rfl⟩

theorem meets_CancelEndsCommandsNotBegun :
    (∀ begun, let f : InFlightCmd := ⟨5, 0x0206, 0, 1000000000, begun⟩
      Fetched 0 0x000E (cmd (byte := 2)) (cancelling 2 [f]) ∧ (cmd (byte := 2)).mboxByte.toNat = 2 ∧
        ((cancelling 2 [f]).mbox 2).dropped = [] ∧ ((cancelling 2 [f]).mbox 2).noRoom = false ∧ ((cancelling 2 [f]).mbox 2).inFlight.find? (fun x => x.tag = 5) = some f ∧ f.begun = begun ∧
        (∀ d ∈ (cancelling 2 [f]).job.dispatches, 2 = 1 → f.opcode = 0x0105 → d.tag = 5 → d.begun = true) ∧
        (∀ x ∈ (cancelling 2 [f]).sec.waiting, 2 = 4 → x.cmd.tag ≠ 5)) ∧
      (let f : InFlightCmd := ⟨8, 0x0105, 0, 1000000000, true⟩
       Fetched 0 0x000E (cmd (byte := 1)) (cancelling 1 [f]) ∧ (cmd (byte := 1)).mboxByte.toNat = 1 ∧
        ((cancelling 1 [f]).mbox 1).dropped = [] ∧ ((cancelling 1 [f]).mbox 1).noRoom = false ∧ ((cancelling 1 [f]).mbox 1).inFlight.find? (fun x => x.tag = 8) = some f ∧
        f.opcode = 0x0105 ∧ ∃ d ∈ (cancelling 1 [f]).job.dispatches, d.tag = 8 ∧ d.begun = false) ∧
      (Fetched 0 0x000E (cmd) (sent 0 0x000E ready) ∧ (cmd).mboxByte.toNat = 0 ∧ ((sent 0 0x000E ready).mbox 0).dropped = [] ∧ (9 : Word) = (cmd).tag) ∧
      ((cancelling 2 []).mbox 2).inFlight.find? (fun x => x.tag = 5) = none ∧ Fetched 0 0x000E (cmd (byte := 7)) (sent 0 0x000E ready) :=
  ⟨fun begun => ⟨cancel_fetched .., by cases begun <;> decide⟩,
    ⟨cancel_fetched .., by decide⟩, ⟨fetched .., rfl, rfl, rfl⟩, rfl, fetched ..⟩

end Sys2Proof.Tests
end

