-- ==== Sys2Proof/Tests/Witnesses2.lean ====
section
/-! SUPPORT. Witnesses for the statements about firmware, plans, memory, the gateway's settings and mailboxes 4 to 6. -/
namespace Sys2Proof.Tests

set_option Elab.async false

open Sys2Proof.Machine

/-- HELD with firmware running. -/
def configurable : State := { blank with dev := { standbyOn := true, firmware := true, heldCause := 3, startStep := 4 } }

theorem meets_FirmwareAndConfigurationEndHeld :
    ((sent 0 0x0008 blank).dev.state = .held ∧ (sent 0 0x0008 blank).dev.overvolt = false ∧ Fetched 0 0x0008 (cmd) (sent 0 0x0008 blank) ∧
        (sent 0 0x0008 blank).dev.firmware = false ∧ (sent 0 0x0008 blank).imageCheck image = 0 ∧ (sent 0 0x0008 blank).imageCheck [] ≠ 0) ∧
      ((sent 0 0x0009 configurable).dev.state = .held ∧ (sent 0 0x0009 configurable).dev.overvolt = false ∧
        Fetched 0 0x0009 (cmd) (sent 0 0x0009 configurable) ∧ (sent 0 0x0009 configurable).dev.firmware = true ∧
        (sent 0 0x0009 configurable).dev.thermalHold = false ∧ (sent 0 0x0009 configurable).recordCheck configRecord = none ∧
        (sent 0 0x0009 configurable).recordCheck [] = some 0x011D) :=
  ⟨⟨rfl, rfl, fetched .., rfl, image_accepted, by decide⟩, rfl, rfl, fetched .., rfl, rfl, configRecord_accepted, by decide +kernel⟩

/-! ## The job and its plans -/

def bindParams (period : Word) : BindParams := { tickPeriod := period, baseTick := 100000, jobTag := 7 }

/-- An UNBIND drains, with nothing left to wait for. -/
def draining : State := { inState .draining with job := { bind := some binding, draining := some 9, suspended := true } }

theorem meets_JobsBindUnbindAndEnd :
    (Fetched 1 0x0101 (cmd) (sent 1 0x0101 ready) ∧ (sent 1 0x0101 ready).dev.state = .ready ∧ (sent 1 0x0101 ready).job.bind = none ∧
        2000 ≤ (bindParams 2000).tickPeriod.toNat ∧ (bindParams 2000).tickPeriod.toNat ≤ 67108864 ∧
        (bindParams 2000).baseTick.toNat % (bindParams 2000).tickPeriod.toNat = 0 ∧ (bindParams 2000).jobTag ≠ 0 ∧
        (bindParams 2000).guardBand = 0 ∧ (bindParams 2000).horizon = 0 ∧ (bindParams 2000).retries = 0 ∧ (bindParams 2000).abortSeal = 0 ∧
        (bindParams 1999).tickPeriod.toNat < 2000) ∧
      (Fetched 1 0x0101 (cmd) (sent 1 0x0101 running) ∧ (sent 1 0x0101 running).job.bind.isSome = true) ∧
      (Fetched 1 0x0102 (cmd) (sent 1 0x0102 running) ∧ (sent 1 0x0102 running).dev.state = .running ∧ (sent 1 0x0102 running).job.dispatches = []) ∧
      ((sent 1 0x0102 draining).drained = true ∧ (sent 1 0x0102 draining).job.hangEnd = false ∧ (sent 1 0x0102 draining).topo.reshape = none ∧
        (sent 1 0x0102 draining).job.draining = some (cmd).tag ∧ (sent 1 0x0102 draining).job.score = none ∧
        ((sent 1 0x0102 draining).mbox 1).inFlight = [⟨9, 0x0102, 0, 1000000000, false⟩] ∧ ((sent 1 0x0102 draining).mbox 1).dropped = [] ∧
        ((sent 1 0x0102 draining).mbox 1).noRoom = false ∧         (sent 1 0x0102 draining).cofin.up = true ∧ (sent 1 0x0102 draining).sec.waiting = []) :=
  ⟨⟨fetched .., rfl, rfl, by decide, by decide, by decide, by decide, rfl, rfl, rfl, rfl, by decide⟩, ⟨fetched .., rfl⟩,
    ⟨fetched .., rfl, rfl⟩, rfl, rfl, rfl, rfl, rfl, rfl, rfl, rfl, rfl, rfl⟩

/-- The plan resident in slot 0. -/
def resident : Resident :=
  { plan := tokenPlan, role := 0, bytes := 2048, headroom := [], wc := [(0, [100]), (3, [200])], lines := [], code := [], energies := [(0, [0, 0, 0, 0])]
    measured := [] }

def loaded : State := { running with job := { bind := some binding, slots := [(0, { plan := some resident })] } }

/-- A load translates in slot 1, and the plan of slot 0 has a dispatch. -/
def translating : State :=
  { running with
    job := { bind := some binding, slots := [(1, { loading := some { resident, tag := 9, mailbox := 1, output := [1], buffer := 0 } })] } }

/-- The same with a plan of level 2 in slot 0. -/
def unequal : State :=
  translating.onJob fun j => { j with slots := (0, { plan := some { resident with plan := { tokenPlan with level := 2 } } }) :: j.slots }

def dispatched : State :=
  { loaded with
    job := { loaded.job with dispatches := [{ slot := 0, first := 500, step := 3, phaseSeq := 0, tag := 8 }] } }

theorem tokenFile_take : tokenFile.take (1152 : Word).toNat = tokenFile :=
  List.take_of_length_le (by decide +kernel)

theorem tokenFile_loads : (sent 1 0x0103 running).loadPlan 0 tokenFile = .ok ((sent 1 0x0103 running).translated tokenPlan 0, false) := by
  have h : (sent 1 0x0103 running).verifyPlan tokenPlan 0 0 = .ok () := ok_unit (by decide +kernel)
  have h0 : (sent 1 0x0103 running).roleOf tokenPlan (sent 1 0x0103 running).ownCoord = some 0 := by decide +kernel
  unfold State.loadPlan
  rw [tokenFile_parses]
  simp only [bind, Except.bind, h0, need, refuse]
  have h1 : ((List.range 4).findSome? fun k => if k = 0 then none else
      ((sent 1 0x0103 running).resident k).filter fun r => r.plan.bodyHash = tokenPlan.bodyHash) = none := by decide +kernel
  rw [h1]
  simp only [h]
  rfl

theorem meets_PlansLoadTranslateAndLeave :
    (Fetched 1 0x0103 (cmd 8192) (sent 1 0x0103 running) ∧ (cmd 8192).mboxByte.toNat < 4 ∧ (sent 1 0x0103 running).job.bind.isSome = true ∧
        (sent 1 0x0103 running).slotBusy (cmd 8192).mboxByte.toNat = false ∧ (1152 : Word).toNat ≤ (cmd 8192).length.toNat ∧
        (sent 1 0x0103 running).loadPlan (cmd 8192).mboxByte.toNat ([].take (1152 : Word).toNat) = .error ⟨0x0101, PlanPlace.detail {}⟩ ∧
        (sent 1 0x0103 running).loadPlan (cmd 8192).mboxByte.toNat (tokenFile.take (1152 : Word).toNat) =
          .ok ((sent 1 0x0103 running).translated tokenPlan 0, false) ∧
        roundUp (1152 : Word).toNat 4096 + ((sent 1 0x0103 running).loadReport ((sent 1 0x0103 running).translated tokenPlan 0)).length ≤
          (cmd 8192).length.toNat) ∧
      ((Tab.get {} (1 : Fin 4).val (sent 1 0x0103 translating).job.slots).loading = some ⟨resident, 9, 1, [1], 0⟩ ∧ ([1] : Bytes) ≠ [] ∧
        ((sent 1 0x0103 translating).mbox 1).inFlight = [⟨9, 0x0103, 0, 1000000000, false⟩] ∧ ((sent 1 0x0103 translating).mbox 1).dropped = [] ∧
        ((sent 1 0x0103 translating).mbox 1).noRoom = false ∧
        (sent 1 0x0103 translating).cofin.up = true ∧ (sent 1 0x0103 translating).sameLevel resident.plan (1 : Fin 4) = true ∧
        (sent 1 0x0103 translating).codeFits resident.plan resident.role (1 : Fin 4) = true ∧ (resident.plan.constants.getD []).length ≤ 2 ^ 40) ∧
      ((Tab.get {} (1 : Fin 4).val (sent 1 0x0103 unequal).job.slots).loading = some ⟨resident, 9, 1, [1], 0⟩ ∧
        ((sent 1 0x0103 unequal).mbox 1).inFlight = [⟨9, 0x0103, 0, 1000000000, false⟩] ∧ ((sent 1 0x0103 unequal).mbox 1).dropped = [] ∧
        ((sent 1 0x0103 unequal).mbox 1).noRoom = false ∧
        (sent 1 0x0103 unequal).cofin.up = true ∧ (sent 1 0x0103 unequal).sameLevel resident.plan (1 : Fin 4) = false) ∧
      (Fetched 1 0x0104 (cmd) (sent 1 0x0104 loaded) ∧ (cmd).mboxByte.toNat < 4 ∧ (sent 1 0x0104 loaded).job.bind.isSome = true ∧
        (sent 1 0x0104 loaded).resident (cmd).mboxByte.toNat = some resident ∧ (sent 1 0x0104 loaded).slotBusy (cmd).mboxByte.toNat = false) ∧
      (Fetched 1 0x0104 (cmd) (sent 1 0x0104 dispatched) ∧ (sent 1 0x0104 dispatched).job.bind.isSome = true ∧
        (sent 1 0x0104 dispatched).resident (cmd).mboxByte.toNat = some resident ∧ (sent 1 0x0104 dispatched).slotBusy (cmd).mboxByte.toNat = true) :=
  ⟨⟨fetched .., by decide, rfl, rfl, by decide, rfl, by rw [tokenFile_take]; exact tokenFile_loads, by decide +kernel⟩,
    ⟨rfl, by decide, rfl, rfl, rfl, rfl, by decide +kernel, by decide +kernel, by decide⟩, ⟨rfl, rfl, rfl, rfl, rfl, by decide +kernel⟩,
    ⟨fetched .., by decide, rfl, rfl, by decide⟩, fetched .., rfl, rfl, by decide⟩

/-! ## Dispatch and scoreboard runs -/

/-- The gazetteer and the chart of a job of one module. -/
def gazBytes : Bytes := leBytes 4 1 ++ zeros 18 ++ leBytes 2 7 ++ leBytes 4 1 ++ zeros 42 ++ leBytes 2 1
def gaz1 : Gazetteer :=
  { jobSize := 1, selfRank := 0, ringM1 := 0, line := 0, selfCoord := 0, jobTag := 7, epoch := 1, entries := [some 0] }
def chartBytes (epoch : Nat) : Bytes := leBytes 4 epoch ++ leBytes 2 7 ++ zeros 2 ++ leBytes 2 0x0101 ++ zeros 118
def chart1 : Chart := parseChart (chartBytes 1)

/-- A resident plan, its layout, and a page for step 0 whose check word holds. -/
def dispatchable : State :=
  { loaded with
    topo := { gaz := some gaz1, chart := some chart1 }
    survey := { state := 2, coord := some 0 }
    regs := { page := Tab.setRun 0 0xDC (leBytes 4 0x5146E6C9) [] } }

theorem dispatch_good : (sent 1 0x0105 dispatchable).dispatchCheck resident = .ok () := ok_unit (by decide +kernel)

set_option maxRecDepth 100000 in
theorem page_good : (sent 1 0x0105 dispatchable).pageFault 0 = none := by decide +kernel

theorem meets_PlanDispatchIsAcceptedOrRefused :
    let s := sent 1 0x0105 dispatchable
    let late := sent 1 0x0105 { dispatchable with clock := { meridian := 10000000 } }
    let stopped := sent 1 0x0105 { dispatchable with job := { dispatchable.job with suspended := true } }
    let acquiring := sent 1 0x0105 { dispatchable with mer := { lock := 1 } }
    (Fetched 1 0x0105 (cmd) s ∧ (cmd).mboxByte.toNat < 4 ∧ s.job.bind = some binding ∧ s.resident (cmd).mboxByte.toNat = some resident ∧
        s.topo.reshape = none ∧ s.job.suspended = false ∧ s.dev.state = .running ∧ s.mer.lock ≠ 0 ∧ s.mer.lock ≠ 1 ∧
        (s.clock.meridian : Int) ≤ binding.tick (((500 : BitVec 64).toNat : Int) - binding.horizon) ∧ s.slotBusy (cmd).mboxByte.toNat = false ∧
        s.dispatchCheck resident = .ok () ∧ s.job.dispatches = [] ∧ s.pageFault 0 = none) ∧
      (Fetched 1 0x0105 (cmd) late ∧ late.job.bind = some binding ∧ late.resident (cmd).mboxByte.toNat = some resident ∧
        late.topo.reshape = none ∧ late.job.suspended = false ∧ late.dev.state = .running ∧ late.mer.lock ≠ 0 ∧ late.mer.lock ≠ 1 ∧
        binding.tick (((500 : BitVec 64).toNat : Int) - binding.horizon) < late.clock.meridian) ∧
      (Fetched 1 0x0105 (cmd) acquiring ∧ acquiring.job.bind = some binding ∧ acquiring.resident (cmd).mboxByte.toNat = some resident ∧
        acquiring.topo.reshape = none ∧ acquiring.job.suspended = false ∧ acquiring.mer.lock = 1) ∧
      (Fetched 1 0x0105 (cmd) stopped ∧ stopped.job.bind = some binding ∧ stopped.resident (cmd).mboxByte.toNat = some resident ∧
        stopped.topo.reshape = none ∧ stopped.job.suspended = true) :=
  ⟨⟨fetched .., by decide, rfl, rfl, rfl, rfl, rfl, by decide, by decide, by decide, by decide, dispatch_good, rfl, page_good⟩,
    ⟨fetched .., rfl, rfl, rfl, rfl, rfl, by decide, by decide, by decide⟩, ⟨fetched .., rfl, rfl, rfl, rfl, rfl⟩, fetched .., rfl, rfl, rfl, rfl⟩

theorem scoreFile_take : scoreFile.take (1088 : Word).toNat = scoreFile :=
  List.take_of_length_le (by decide +kernel)

/-- What the load of the scoreboard plan gives. -/
def scored : Resident := valueOf ((sent 6 0x0603 ready).loadScore scoreFile) resident

theorem scoreFile_loads : (sent 6 0x0603 ready).loadScore scoreFile = .ok scored ∧ scored.plan = scorePlan ∧ scored.role = 0 := by
  have h2 : (sent 6 0x0603 ready).check2 scorePlan = .ok () := ok_unit (by decide +kernel)
  have h3 : check3 scorePlan = .ok () := ok_unit (by decide +kernel)
  have h4 : (sent 6 0x0603 ready).check4 scorePlan = .ok () := ok_unit (by decide +kernel)
  have h9 : (sent 6 0x0603 ready).check9 scorePlan 0 4 = .ok () := ok_unit (by decide +kernel)
  have h10 : (sent 6 0x0603 ready).check10 scorePlan = .ok () := ok_unit (by decide +kernel)
  have h : ∃ r, (sent 6 0x0603 ready).loadScore scoreFile = .ok r ∧ r.plan = scorePlan ∧ r.role = 0 := by
    unfold State.loadScore
    rw [scoreFile_parses]
    simp only [bind, Except.bind, need, h2, h3, h4, h9, h10]
    exact ⟨_, rfl, rfl, rfl⟩
  obtain ⟨r, hr, h1, h0⟩ := h
  have hs : scored = r := by rw [scored, hr]; rfl
  rw [hs]
  exact ⟨hr, h1, h0⟩

theorem meets_ScoreboardRunTakesItsCores :
    let s := sent 6 0x0603 ready
    (Fetched 6 0x0603 (cmd 8192) s ∧ s.dev.state = .ready ∧ s.scoring = false ∧ (1088 : Word).toNat ≤ (cmd 8192).length.toNat ∧
        s.loadScore (scoreFile.take (1088 : Word).toNat) = .ok scored ∧ scored.plan.twin = false ∧ s.scoreReady scored = true ∧
        s.coreMap.Nodup ∧ s.coreMap.length = 120 ∧ scored.blockOf 0 = some 0 ∧ scored.plan.stream scored.role 0 0 ≠ []) ∧
      Fetched 6 0x0603 (cmd) (sent 6 0x0603 running) ∧ (sent 6 0x0603 running).dev.state ≠ .ready := by
  obtain ⟨hl, hp, hr⟩ := scoreFile_loads
  have hb : ∀ n, scored.blockOf n = ({ resident with plan := scorePlan } : Resident).blockOf n := by
    intro n; simp only [Resident.blockOf, hp, hr]; rfl
  have hready : (sent 6 0x0603 ready).scoreReady scored = (sent 6 0x0603 ready).scoreReady { resident with plan := scorePlan } := by
    simp only [State.scoreReady, State.coresReady, hb, hp, hr]
    rfl
  refine ⟨⟨fetched .., rfl, rfl, by decide, by rw [scoreFile_take]; exact hl, by rw [hp]; rfl, ?_, by decide +kernel, by decide +kernel,
    by rw [hb]; decide +kernel, by rw [hp, hr]; decide +kernel⟩, fetched .., by decide⟩
  rw [hready]
  decide +kernel

/-! ## Mailbox 2 -/

/-- A job with its layout. -/
def laidOut : State := { running with topo := { gaz := some gaz1, chart := some chart1 } }

/-- A near arena of 4 MiB on hub 2, and parameters of a tensor of 16 by 16 there. -/
def arenaed : State := { laidOut with job := { bind := some binding, arenas := { spread := some 65536, near := [(2, 4194304)] } } }
def tensorParams : TensorParams :=
  { tensor := 5, fmt := 0, flags := 0, hub := 2, gradFmt := 0, gradSpace := 2, rows := 16, cols := 16, gradOff := 0, gRows := 0, nslotsM1 := 0 }
def tensored : State := { arenaed with job := { arenaed.job with tensors := [tensorOf tensorParams] } }

theorem meets_LayoutArenasAndTensors :
    (Fetched 2 0x0201 (cmd) (sent 2 0x0201 ready) ∧ (sent 2 0x0201 ready).job.bind = none ∧ (520192 : Word).toNat ≤ 520192 ∧
        (520192 : Word).toNat % 4096 = 0) ∧
      (Fetched 2 0x0201 (cmd) (sent 2 0x0201 running) ∧ (sent 2 0x0201 running).job.bind.isSome = true) ∧
      (let s := sent 2 0x0202 laidOut
       Fetched 2 0x0202 (cmd) s ∧ s.job.bind.isSome = true ∧ (4194304 : BitVec 64).toNat ≤ 744 * s.rowSplit * 4096 ∧
        744 * s.rowSplit * 4096 < (1099511627776 : BitVec 64).toNat ∧ (7 : Byte).toNat < 8 ∧
        (s.onJob fun j => { j with arenas := j.arenas.put 2 7 4194304 }).nearUsed 7 ≤ s.nearBytes ∧
        (s.onJob fun j => { j with arenas := j.arenas.put 6 7 4194304 }).nearUsed 7 ≤ s.nearBytes ∧
        s.nearBytes < (s.onJob fun j => { j with arenas := j.arenas.put (2 : Byte).toNat 7 1099511627776 }).nearUsed 7 ∧
        s.nearBytes < (s.onJob fun j => { j with arenas := j.arenas.put (6 : Byte).toNat 7 1099511627776 }).nearUsed 7) ∧
      (let s := sent 2 0x0203 arenaed
       s.job.bind.isSome = true ∧ s.topo.chart.isSome = true ∧ Fetched 2 0x0203 (cmd) s ∧ (tensorOf tensorParams).inRange = true ∧
        s.tensor? tensorParams.tensor.toNat = none ∧ s.gradFits (tensorOf tensorParams) = true ∧
        (s.onJob fun j => { j with tensors := j.tensors ++ [tensorOf tensorParams] }).nearUsed tensorParams.hub.toNat ≤ s.nearBytes) ∧
      (Fetched 2 0x0203 (cmd) (sent 2 0x0203 tensored) ∧ ((sent 2 0x0203 tensored).tensor? tensorParams.tensor.toNat).isSome = true) ∧
      (let s := sent 2 0x0204 tensored
       s.job.bind.isSome = true ∧ s.topo.chart.isSome = true ∧ Fetched 2 0x0204 (cmd) s ∧ s.job.dispatched = false ∧
        (s.tensor? (5 : BitVec 16).toNat).isSome = true) :=
  ⟨⟨fetched .., rfl, by decide, by decide⟩, ⟨fetched .., rfl⟩, ⟨fetched .., rfl, by decide, by decide, by decide, by decide, by decide, by decide, by decide⟩,
    ⟨rfl, rfl, fetched .., by decide, by decide, by decide +kernel, by decide +kernel⟩, ⟨fetched .., by decide⟩, rfl, rfl, fetched .., rfl, by decide⟩

/-- The last 4 bytes of hub 7's cache, and of the spread arena. -/
def hubcAddr : MemAddr := { base := 0x701FFFFFC, space := 3 }
def spreadAddr : MemAddr := { base := 65532, space := 1 }

theorem meets_WriteAndReadReachTheirBytes :
    (Fetched 2 0x0205 (cmd) (sent 2 0x0205 arenaed) ∧ hubcAddr.target.toNat = noRank ∧ hubcAddr.space.toNat = spHubc ∧
        natBits hubcAddr.base.toNat 39 32 < 8 ∧ natBits hubcAddr.base.toNat 24 0 + ([1, 2, 3, 4] : Bytes).length ≤ hubcBytes) ∧
      (spreadAddr.target.toNat = noRank ∧ spreadAddr.space.toNat = spSpread ∧ (sent 2 0x0205 arenaed).rowSplit ≤ 524288 ∧
        spreadAddr.base.toNat + ([1, 2, 3, 4] : Bytes).length ≤ (sent 2 0x0205 arenaed).job.arenas.spread.getD 0 ∧
        spreadAddr.base.toNat + ([1, 2, 3, 4] : Bytes).length ≤ 744 * (sent 2 0x0205 arenaed).rowSplit * 4096 ∧
        ∀ n < 24, ((sent 2 0x0205 arenaed).stack n).stopped = false) ∧
      (Fetched 2 0x0206 (cmd 4) (sent 2 0x0206 arenaed) ∧ natBits hubcAddr.base.toNat 24 0 + (cmd 4).length.toNat ≤ hubcBytes ∧
        (∀ b, Tab.get false b (sent 2 0x0206 arenaed).poison = false) ∧ (∀ h, ((sent 2 0x0206 arenaed).hub h).blind = [])) ∧
      (spreadAddr.base.toNat + (cmd 4).length.toNat ≤ (sent 2 0x0206 arenaed).job.arenas.spread.getD 0 ∧
        spreadAddr.base.toNat + (cmd 4).length.toNat ≤ 744 * (sent 2 0x0206 arenaed).rowSplit * 4096 ∧ (sent 2 0x0206 arenaed).hbmCalm = true ∧
        (sent 2 0x0206 arenaed).areaSize .spread < spreadAddr.base.toNat + (cmd 5).length.toNat) ∧
      Fetched 2 0x0206 (cmd 5) (sent 2 0x0206 arenaed) ∧ hubcBytes < natBits hubcAddr.base.toNat 24 0 + (cmd 5).length.toNat :=
  ⟨⟨fetched .., by decide, by decide, by decide, by decide⟩, ⟨by decide, by decide, by decide, by decide, by decide, by decide⟩,
    ⟨fetched .., by decide, fun _ => rfl, fun _ => rfl⟩, ⟨by decide, by decide, by decide, by decide⟩, fetched .., by decide⟩

/-- Gateway port 1 is up, with tunnel 3 and queue pair 7. -/
def tunnel3 : Tunnel := { index := 3, remote := 1, remotePort := 19540, jobTag := 7, mtu := 9000 }
def qp7 : Qp := { qpn := 7, remoteQpn := 70, gid := 0, mtu := 4096, sendPsn := 0, recvPsn := 0, remote := 0, remoteGid := 0, ready := true }
def gatewayUp : State := { ready with gws := [(1, { state := 2, tunnels := [tunnel3], qps := [qp7] })] }

theorem meets_GatewaySettingsTakeEffect :
    let p : GwPortParams := { port := 1, ipv6 := false, vlan := 4095, udpPort := 0, plen := 32, pfc := 0, address := 1 }
    let t : GwTunnelParams := { port := 1, index := 3, remotePort := 0, jobTag := 7, remote := 1, mtu := 0 }
    let q : GwQpParams := { port := 1, qpn := 7, remoteQpn := 70, gid := 15, mtuCode := 3, sendPsn := 0, recvPsn := 0, remote := 0, remoteGid := 0 }
    ((sent 2 0x0207 gatewayUp).gwState (1 : Fin 2) = 2 ∧ Fetched 2 0x0207 (cmd) (sent 2 0x0207 gatewayUp) ∧ p.port.toNat = (1 : Fin 2) ∧
        p.plen.toNat ≤ (if p.ipv6 then 128 else 32) ∧ p.pfc = 0 ∧ p.vlan.toNat ≤ 4095) ∧
      ((sent 2 0x0208 gatewayUp).gwState (1 : Fin 2) = 2 ∧ Fetched 2 0x0208 (cmd) (sent 2 0x0208 gatewayUp) ∧ t.port.toNat = (1 : Fin 2) ∧
        t.mtu = 0 ∧ ((sent 2 0x0208 gatewayUp).gw (1 : Fin 2)).tunnels.length < 1024 ∧
        ((sent 2 0x0208 gatewayUp).gw (1 : Fin 2)).tunnels.any (fun x => x.index = t.index.toNat) = true) ∧
      ((sent 2 0x0209 gatewayUp).gwState (1 : Fin 2) = 2 ∧ Fetched 2 0x0209 (cmd) (sent 2 0x0209 gatewayUp) ∧ q.port.toNat = (1 : Fin 2) ∧
        q.gid.toNat < 16 ∧ 3 ≤ q.mtuCode.toNat ∧ q.mtuCode.toNat ≤ 5 ∧ ((sent 2 0x0209 gatewayUp).gw (1 : Fin 2)).qps.length < 4096 ∧
        ((sent 2 0x0209 gatewayUp).gw (1 : Fin 2)).qps = [qp7] ∧ qp7.qpn = q.qpn) :=
  ⟨⟨by decide, fetched .., rfl, by decide, rfl, by decide⟩, ⟨by decide, fetched .., rfl, rfl, by decide, by decide⟩, by decide, fetched .., rfl,
    by decide, by decide, by decide, by decide, rfl, rfl⟩

theorem meets_SpreadInterleaveIsInjective :
    0 < 744 * 1 * 4096 ∧ 3047423 < 744 * 1 * 4096 ∧ spreadPlace 0 = spreadPlace 4095 ∧ 0 % 4096 ≠ 4095 % 4096 := by
  decide

/-! ## Mailboxes 4, 5 and 6 -/

/-- The licence is installed. -/
def licensed2 : State := { blank with sec := { licences := [(2, licence)] } }

theorem meets_LicencesAndIdentity :
    (Fetched 4 0x0401 (cmd) (sent 4 0x0401 blank) ∧ (sent 4 0x0401 blank).licenceCheck licence = 0 ∧
        (sent 4 0x0401 blank).licensed (field licence 5 1) = false ∧ field licence 5 1 ≠ 1 ∧ (sent 4 0x0401 blank).licenceCheck [] ≠ 0) ∧
      (Fetched 4 0x0401 (cmd) (sent 4 0x0401 licensed2) ∧ (sent 4 0x0401 licensed2).licenceCheck licence = 0 ∧
        (sent 4 0x0401 licensed2).licensed (field licence 5 1) = true) ∧
      (Fetched 4 0x0402 (cmd 768) (sent 4 0x0402 ready) ∧ 768 ≤ (cmd 768).length.toNat ∧
        ∀ k ∈ [1, 2, 3, 4], (Tab.get [] k (sent 4 0x0402 ready).sec.licences).length ≤ 192) ∧
      (Fetched 4 0x0403 (cmd 65536) (sent 4 0x0403 ready)) ∧
      Fetched 4 0x0404 (cmd 256) (sent 4 0x0404 ready) ∧ 256 ≤ (cmd 256).length.toNat :=
  ⟨⟨fetched .., licence_accepted, by decide +kernel, by decide +kernel, by decide⟩, ⟨fetched .., licence_accepted, by decide +kernel⟩, ⟨fetched .., by decide, by decide⟩, fetched ..,
    fetched .., by decide⟩

theorem meets_PowerConfigAndTelemetrySnapshot :
    (Fetched 5 0x0501 (cmd) (sent 5 0x0501 ready) ∧ 1000 ≤ (1000 : BitVec 16).toNat ∧ (4800 : BitVec 16).toNat ≤ 4800 ∧
        (sent 5 0x0501 ready).job.bind = none ∧ (999 : BitVec 16).toNat < 1000 ∧ 4800 < (4801 : BitVec 16).toNat ∧
        10 < (11 : Byte).toNat ∧ (0 < (99 : Word).toNat ∧ (99 : Word).toNat < 100) ∧ 100000 < (100001 : Word).toNat) ∧
      (Fetched 5 0x0501 (cmd) (sent 5 0x0501 running) ∧ (sent 5 0x0501 running).job.bind.isSome = true) ∧
      Fetched 5 0x0502 (cmd 8320) (sent 5 0x0502 ready) ∧ 8320 ≤ (cmd 8320).length.toNat :=
  ⟨⟨fetched .., by decide, by decide, rfl, by decide⟩, ⟨fetched .., rfl⟩, fetched .., by decide⟩

/-- A dump is held; and one of which the summary alone is. -/
def heldDump : State := { ready with dump := { held := some dumped } }
def heldSummary : State := { ready with dump := { held := some { dumped with summaryOnly := true } } }

/-- A near arena that leaves no room for a dump region on hub 7. -/
def crowded : State := { ready with job := { arenas := { near := [(7, 1099511627776)] } } }

theorem meets_DumpAndInspectCommands :
    ((sent 0 0x0005 heldDump).dump.moduleHold = none ∧ Fetched 0 0x0005 (cmd 64 1) (sent 0 0x0005 heldDump) ∧ (cmd 64 1).mboxByte = 1 ∧
        (1048512 : BitVec 64).toNat + (cmd 64 1).length.toNat ≤ 2 ^ 20 ∧ (sent 0 0x0005 heldDump).dump.held = some dumped) ∧
      (Fetched 0 0x0005 (cmd 64) (sent 0 0x0005 heldDump) ∧ (cmd 64).mboxByte = 0 ∧ (268435392 : BitVec 64).toNat + (cmd 64).length.toNat ≤ 2 ^ 28 ∧
        dumped.summaryOnly = false) ∧
      (Fetched 0 0x0005 (cmd 64) (sent 0 0x0005 heldSummary) ∧ (sent 0 0x0005 heldSummary).dump.moduleHold = none ∧
        (sent 0 0x0005 heldSummary).dump.held = some { dumped with summaryOnly := true }) ∧
      (Fetched 0 0x0005 (cmd 64 1) (sent 0 0x0005 ready) ∧ (sent 0 0x0005 ready).dump.held = none) ∧
      (Fetched 0 0x0006 (cmd) (sent 0 0x0006 heldDump) ∧ (sent 0 0x0006 heldDump).dump.held = some dumped) ∧
      (Fetched 0 0x0006 (cmd) (sent 0 0x0006 ready) ∧ (sent 0 0x0006 ready).dump.held = none) ∧
      (Fetched 6 0x0601 (cmd) (sent 6 0x0601 ready) ∧ (sent 6 0x0601 ready).dump.held = none ∧ (sent 6 0x0601 ready).dump.running = none ∧
        (sent 6 0x0601 ready).dev.state = .ready) ∧
      (Fetched 6 0x0601 (cmd) (sent 6 0x0601 heldDump) ∧ (sent 6 0x0601 heldDump).dump.held.isSome = true ∧ Quiet (sent 6 0x0601 heldDump)) ∧
      (Fetched 6 0x0601 (cmd) (sent 6 0x0601 (dumping {})) ∧ (sent 6 0x0601 (dumping {})).dump.held = none ∧
        (sent 6 0x0601 (dumping {})).dump.running = some dumped) ∧
      (Fetched 6 0x0602 (cmd) (sent 6 0x0602 crowded) ∧
        (sent 6 0x0602 crowded).nearBytes < ((sent 6 0x0602 crowded).onDump fun d => { d with region := none }).nearUsed (7 : Byte).toNat + 705 * 93 * 4096) ∧
      (Fetched 6 0x0602 (cmd) (sent 6 0x0602 ready) ∧ (7 : Byte).toNat < 8 ∧
        ((sent 6 0x0602 ready).onDump fun d => { d with region := none }).nearUsed (7 : Byte).toNat + 705 * 93 * 4096 ≤ (sent 6 0x0602 ready).nearBytes ∧
        8 ≤ (8 : Byte).toNat) ∧
      (Fetched 6 0x0605 (cmd 360) (sent 6 0x0605 ready) ∧ (127 : Byte).toNat < 128 ∧ 360 ≤ (cmd 360).length.toNat ∧ 128 ≤ (128 : Byte).toNat) :=
  ⟨⟨rfl, fetched .., rfl, by decide, rfl⟩, ⟨fetched .., rfl, by decide, rfl⟩, ⟨fetched .., rfl, rfl⟩, ⟨fetched .., rfl⟩, ⟨fetched .., rfl⟩,
    ⟨fetched .., rfl⟩, ⟨fetched .., rfl, rfl, rfl⟩, ⟨fetched .., rfl, quiet _⟩, ⟨fetched .., rfl, rfl⟩, ⟨fetched .., by decide⟩,
    ⟨fetched .., by decide, by decide, by decide⟩, fetched .., by decide, by decide, by decide⟩

end Sys2Proof.Tests
end

