-- ==== Sys2Proof/Tests/Witnesses3.lean ====
section
/-! SUPPORT. Witnesses for the statements about survey, layouts, management, field tests, frames and the meridian counter. -/
namespace Sys2Proof.Tests

set_option Elab.async false

open Sys2Proof.Machine

/-! ## Survey and layouts -/

/-- A port map of profile 3 with a wiring sheet of SHEET_ID 1. -/
def portData : Bytes := leBytes 1 3 ++ zeros 207 ++ leBytes 4 1 ++ zeros 1212

theorem meets_PortAndSurveyCommands :
    (∀ q, (ready.out q).staged = [] ∧ (running.out q).staged = []) ∧
      (Fetched 3 0x0301 (cmd 1424) (sent 3 0x0301 ready) ∧ (sent 3 0x0301 ready).job.bind = none ∧ badPortMap portData = false ∧
        (sent 3 0x0301 ready).badSheet (parseSheet (portData.drop 208)) = false) ∧
      (Fetched 3 0x0301 (cmd 1424) (sent 3 0x0301 running) ∧ (sent 3 0x0301 running).job.bind.isSome = true) ∧
      (Fetched 3 0x0302 (cmd) (sent 3 0x0302 ready) ∧ (sent 3 0x0302 ready).job.bind = none) ∧
      (Fetched 3 0x0302 (cmd) (sent 3 0x0302 running) ∧ (sent 3 0x0302 running).job.bind.isSome = true) ∧
      (Fetched 3 0x0303 (cmd) (sent 3 0x0303 ready) ∧ (sent 3 0x0303 ready).job.bind = none) ∧
      (Fetched 3 0x0303 (cmd) (sent 3 0x0303 running) ∧ (sent 3 0x0303 running).job.bind.isSome = true) ∧
      Fetched 3 0x0304 (cmd 6240) (sent 3 0x0304 ready) ∧ 6240 ≤ (cmd 6240).length.toNat :=
  ⟨fun _ => ⟨rfl, rfl⟩, ⟨fetched .., rfl, by decide +kernel, by decide +kernel⟩, ⟨fetched .., rfl⟩, ⟨fetched .., rfl⟩, ⟨fetched .., rfl⟩,
    ⟨fetched .., rfl⟩, ⟨fetched .., rfl⟩, fetched .., by decide⟩

/-- Survey runs at step 8 of a start at the root, with a stored meridian value; link 5 is UP with 252 bytes of a legend, link 6 with 238. -/
def surveying : State :=
  { served with
    dev := { standbyOn := true, firmware := true, mainOn := true, state := .initialising, startStep := 8 }
    mer := { root := true, stored := some (1000, 0) }
    survey := { state := 1 }
    links := [(5, { state := .up, partial_ := zeros 252, nextFragment := 18 }), (6, { state := .up, partial_ := zeros 238, nextFragment := 17 })] }

theorem meets_SurveyRoundsLegendsAndEnd :
    (surveying.survey.state = 1 ∧ ∀ q < 12, (surveying.port q).state = .unconfigured) ∧
      ((surveying.link (5 : Fin 24)).state = .up ∧ (3 : BitVec 128).toNat % 65536 = 3 ∧ (4611 : BitVec 128).toNat % 65536 = 3 + 18 * 256 ∧
        (surveying.link (5 : Fin 24)).nextFragment = 18 ∧ (surveying.link (5 : Fin 24)).partial_.length = 252 ∧ (4 : BitVec 128).toNat % 256 ≠ 3) ∧
      ((surveying.link (6 : Fin 24)).state = .up ∧ (4355 : BitVec 128).toNat % 65536 = 3 + 17 * 256 ∧
        (surveying.link (6 : Fin 24)).nextFragment = 17 ∧ (surveying.link (6 : Fin 24)).partial_ ≠ []) ∧
      (surveying.dev.startStep = 8 ∧ surveying.dev.state = .initialising ∧ surveying.dev.surveyEnd = none ∧ surveying.dev.slow = false ∧
        surveying.mer.root = true ∧ surveying.mer.stored = some (1000, 0)) := by
  decide +kernel

/-- A layout of two modules on X, of which this is the one at 1. -/
def chart2 : Chart :=
  parseChart (leBytes 4 1 ++ leBytes 2 7 ++ leBytes 2 1 ++ leBytes 4 0x01000101 ++ zeros 4 ++ leBytes 2 0x0100 ++ zeros 110)
def gaz2 : Gazetteer :=
  { jobSize := 2, selfRank := 1, ringM1 := 1, line := 0, selfCoord := 1, jobTag := 7, epoch := 1, entries := [some 0, some 1] }

/-- Inset 0 of it leaves the module at 1 alone. -/
def insetBytes : Bytes := leBytes 4 1 ++ zeros 4 ++ leBytes 6 1 ++ zeros 8 ++ leBytes 2 7 ++ leBytes 4 1 ++ zeros 36 ++ leBytes 6 1 ++ leBytes 2 1
def insetable : State :=
  { running with
    topo := { gaz := some gaz2, chart := some chart2 }, survey := { state := 2, coord := some 1 }, sec := { licences := [(2, [1])] }
    job := { bind := some binding, arenas := { inset := some (0, 65536) } } }

/-- RESHAPE's chart of the next epoch, with its gazetteer. -/
def reshapeBytes : Bytes := chartBytes 2 ++ gazBytes
def reshapable : State :=
  { laidOut with survey := { state := 2, coord := some 0 }, sec := { licences := [(2, [1])] } }

/-- A layout of 8,192 modules, 256 on one axis by 32 on the next, and a gazetteer of that size. -/
def wideBytes : Bytes :=
  leBytes 4 1 ++ leBytes 2 7 ++ [13, 0, 1, 5, 0, 13, 0] ++ zeros 12 ++ [8] ++ zeros 7 ++ [5] ++ zeros 30 ++
    ((List.range 8).flatMap fun i => [1, BitVec.ofNat 8 i]) ++ ((List.range 5).flatMap fun i => [2, BitVec.ofNat 8 i]) ++ zeros 38
def wideGaz : Gazetteer :=
  { jobSize := 8192, selfRank := 0, ringM1 := 0x1FFF00, line := 0, selfCoord := 0, jobTag := 7, epoch := 1, entries := List.replicate 8192 (some 0) }
theorem wide_good : (parseChart wideBytes).bad (field wideBytes 11 1) wideGaz = false := by
  have hp : (parseChart wideBytes).place wideGaz 0 = some ⟨0, 0, 0, (List.range 8).map (fun i => (2, 2 ^ i)) ++ (List.range 5).map fun i => (4, 2 ^ i)⟩ := by
    decide +kernel
  have h : ((parseChart wideBytes).hosts wideGaz).length = 8192 := by
    have hr : wideGaz.entries = List.replicate 8192 (some 0) := rfl
    rw [Chart.hosts, hr, List.filterMap_replicate, id, List.filterMap_replicate, hp]
    simp only [Option.map_some, List.length_replicate]
  unfold Chart.bad
  rw [h]
  decide +kernel

/-- That gazetteer is in force, and no chart. -/
def widened : State := { running with topo := { gaz := some wideGaz } }

/-- The same within a step. -/
def stepping : State := reshapable.onJob fun j => { j with attempt := some { step := 3 }, dispatched := true }

/-- It is accepted and fits the arena. -/
theorem inset_good : ∃ i, (sent 3 0x0307 insetable).insetOf 0 8 0 (insetBytes.take 72) = .ok i ∧
    (sent 3 0x0307 insetable).insetsFit (i :: (sent 3 0x0307 insetable).topo.insets.filter fun o => o.k ≠ 0) = true := by
  have h : (match (sent 3 0x0307 insetable).insetOf 0 8 0 (insetBytes.take 72) with
      | .ok i => (sent 3 0x0307 insetable).insetsFit (i :: (sent 3 0x0307 insetable).topo.insets.filter fun o => o.k ≠ 0)
      | .error _ => false) = true := by
    decide +kernel
  generalize (sent 3 0x0307 insetable).insetOf 0 8 0 (insetBytes.take 72) = x at h
  cases x with
  | ok i => exact ⟨i, rfl, h⟩
  | error e => exact absurd h Bool.false_ne_true

theorem meets_TopologyCommandsTakeEffect :
    (Fetched 3 0x0305 (cmd 72) (sent 3 0x0305 stepping) ∧ (sent 3 0x0305 stepping).job.attempt.isSome = true ∧
        ((sent 3 0x0305 stepping).mbox 3).version = 3 ∧ (sent 3 0x0305 stepping).gazetteerBad gaz1 = false) ∧
      (Fetched 3 0x0306 (cmd 128) (sent 3 0x0306 widened) ∧ (sent 3 0x0306 widened).topo.gaz = some wideGaz ∧
        wideGaz.jobTag = (parseChart wideBytes).jobTag ∧ (sent 3 0x0306 widened).topo.chart = none ∧ (sent 3 0x0306 widened).job.dispatched = false ∧
        (parseChart wideBytes).inset = 0 ∧ (parseChart wideBytes).bad (field wideBytes 11 1) wideGaz = false ∧
        ((parseChart wideBytes).place wideGaz wideGaz.selfCoord).isSome = true ∧ 4096 < wideGaz.jobSize ∧ (sent 3 0x0306 widened).licensed 2 = false) ∧
      (Fetched 3 0x0306 (cmd 128) (sent 3 0x0306 reshapable) ∧ chart1.bytes = (parseChart (chartBytes 1)).bytes ∧
        chart1.epoch = (parseChart (chartBytes 1)).epoch) ∧
      (Fetched 3 0x0306 (cmd 128) (sent 3 0x0306 stepping) ∧ (sent 3 0x0306 stepping).topo.gaz = some gaz1 ∧
        (sent 3 0x0306 stepping).topo.chart = some chart1 ∧ (sent 3 0x0306 stepping).job.dispatched = true) ∧
      (Fetched 3 0x0305 (cmd 72) (sent 3 0x0305 reshapable) ∧ parseGazetteer (gazBytes.take (cmd 72).length.toNat) = some gaz1 ∧
        (sent 3 0x0305 reshapable).job.attempt = none ∧ ((sent 3 0x0305 reshapable).mbox 3).version = 3 ∧
        (sent 3 0x0305 reshapable).gazetteerBad gaz1 = false) ∧
      (Fetched 3 0x0305 (cmd 72) (sent 3 0x0305 running) ∧ (sent 3 0x0305 running).job.attempt = none ∧
        ((sent 3 0x0305 running).mbox 3).version = 3 ∧ (sent 3 0x0305 running).gazetteerBad gaz1 = true) ∧
      (Fetched 3 0x0306 (cmd 128) (sent 3 0x0306 reshapable) ∧ (sent 3 0x0306 reshapable).topo.gaz = some gaz1 ∧
        gaz1.jobTag = (parseChart (chartBytes 2)).jobTag ∧ chart1.rank = false ∧ (sent 3 0x0306 reshapable).topo.chart = some chart1 ∧
        (sent 3 0x0306 reshapable).job.dispatched = false ∧ (parseChart (chartBytes 2)).inset = 0 ∧
        (parseChart (chartBytes 2)).bad (field (chartBytes 2) 11 1) gaz1 = false ∧
        ((parseChart (chartBytes 2)).place gaz1 gaz1.selfCoord).isSome = true ∧ (sent 3 0x0306 reshapable).tooLarge gaz1 = false ∧
        chart1.bytes ≠ (parseChart (chartBytes 2)).bytes) ∧
      (let s := sent 3 0x0307 insetable
       Fetched 3 0x0307 (cmd 72) s ∧ s.licensed 2 = true ∧ s.job.bind.isSome = true ∧ (cmd 72).mboxByte.toNat ≤ 1 ∧ (8 : BitVec 16) ≠ 0 ∧
        (0 : Byte).toNat ≤ 4 ∧ s.topo.window = none ∧ ∃ i, s.insetOf (cmd 72).mboxByte.toNat (8 : BitVec 16).toNat (0 : Byte).toNat (insetBytes.take (cmd 72).length.toNat) = .ok i ∧
          s.insetsFit (i :: s.topo.insets.filter fun o => o.k ≠ (cmd 72).mboxByte.toNat) = true) ∧
      (Fetched 3 0x0307 (cmd) (sent 3 0x0307 running) ∧ (sent 3 0x0307 running).licensed 2 = false) ∧
      (let s := sent 3 0x0308 reshapable
       let d := reshapeBytes.take (cmd 200).length.toNat
       Fetched 3 0x0308 (cmd 200) s ∧ s.licensed 2 = true ∧ s.job.bind.isSome = true ∧ s.job.suspended = false ∧ s.topo.reshape = none ∧
        parseGazetteer (d.drop 128) = some gaz1 ∧ (s.ownGazetteer gaz1).ranksBad = false ∧ (parseChart d).inset = 0 ∧
        (parseChart d).jobTag = gaz1.jobTag ∧ (parseChart d).bad (field d 11 1) (s.ownGazetteer gaz1) = false ∧ s.follows (parseChart d) = true ∧
        s.framesNeeded { tag := (cmd 200).tag, chart := parseChart d, gaz := s.ownGazetteer gaz1, afterStep := 3, frames := 8 } ≤ 8) ∧
      Fetched 3 0x0308 (cmd) (sent 3 0x0308 running) ∧ (sent 3 0x0308 running).licensed 2 = false :=
  ⟨⟨fetched .., rfl, rfl, by decide +kernel⟩,
    ⟨fetched .., rfl, by decide +kernel, rfl, rfl, by decide +kernel, wide_good, by decide +kernel, by decide, by decide⟩,
    ⟨fetched .., rfl, rfl⟩, ⟨fetched .., rfl, rfl, rfl⟩,
    ⟨fetched .., by decide +kernel, rfl, rfl, by decide +kernel⟩, ⟨fetched .., rfl, rfl, by decide +kernel⟩,
    ⟨fetched .., rfl, by decide +kernel, by decide +kernel, rfl, rfl, by decide +kernel, by decide +kernel, by decide +kernel, by decide,
      by decide +kernel⟩,
    ⟨fetched .., by decide, rfl, by decide, by decide, by decide, rfl, inset_good⟩,
    ⟨fetched .., by decide⟩,
    ⟨fetched .., by decide, rfl, rfl, rfl, by decide +kernel, by decide +kernel, by decide +kernel, by decide +kernel, by decide +kernel,
      by decide +kernel, by decide +kernel⟩, fetched .., by decide⟩

/-- A migration window of four frames from frame 10 on, at its end; with a notice, the old layout stays. -/
def migration : Reshape := { tag := 9, chart := parseChart (chartBytes 2), gaz := gaz1, afterStep := 3, frames := 4, opened := some 10 }
def migrating (notices : List (BitVec 48 × Nat)) : State :=
  sent 3 0x0308 { laidOut with
    job := { bind := some binding, frame := 14 }, topo := { gaz := some gaz1, chart := some chart1, reshape := some migration, notices } }

theorem meets_MigrationWindowEndsInNewOrOldLayout :
    (∀ l, (migrating l).topo.reshape = some migration ∧ migration.opened = some 10 ∧ (10 + migration.frames : Nat) ≤ (migrating l).job.frame ∧
        (migrating l).job.dispatches = [] ∧ (migrating l).job.attempt = none ∧
        ((migrating l).mbox 3).inFlight = [⟨9, 0x0308, 0, 1000000000, false⟩] ∧ migration.tag = (cmd).tag ∧ ((migrating l).mbox 3).dropped = [] ∧
        (migrating l).cofin.up = true ∧ ((migrating l).mbox 3).noRoom = false) ∧
      ((migrating []).topo.notices = [] ∧ migration.chart.place migration.gaz (migrating []).ownCoord = some ⟨0, 0, 0, []⟩ ∧
        (migrating []).newGranules migration ⟨0, 0, 0, []⟩ = some []) ∧
      (migrating [(1, 12)]).topo.notices ≠ [] ∧ (migrating [(1, 12)]).released = true :=
  ⟨fun l => ⟨rfl, rfl, Int.le_refl 14, rfl, rfl, rfl, rfl, rfl, rfl, rfl⟩, by decide +kernel, by decide, by decide⟩

/-- A reshape window from frame 20 on has passed; the module at 0 is lost. -/
def windowed (notices : List (BitVec 48 × Nat)) : State :=
  { running with
    job := { bind := some binding, frame := 149 }
    topo := { gaz := some gaz2, chart := some chart2, window := some 20, notices } }

def switching : State := { running with job := { bind := some binding, frame := 149 }, topo := { switchAt := some 149 } }

theorem meets_LossesAreHeldAndReshapeWindowsEnd :
    (running.job.bind = some binding ∧ running.topo.reshape = none ∧ running.sealSt.vote = none ∧ running.sealSt.doneWaiting = [] ∧
        (8 : BitVec 16) ≠ binding.jobTag) ∧
      ((windowed []).job.bind = some binding ∧ (windowed []).topo.window = some 20 ∧
        ((windowed []).clock.meridian : Int) < binding.deadline ((20 + binding.horizon : Nat) : Int) ∧
        (windowed []).topo.proposals.contains 0 = false) ∧
      ((windowed []).job.dispatches = [] ∧ (windowed []).job.attempt = none ∧ (20 + binding.horizon + 1 : Nat) ≤ (windowed []).job.frame ∧
        (windowed []).lostSet 20 = []) ∧
      ((windowed [(0, 5)]).lostSet 20 = [0] ∧ (windowed [(0, 5)]).licensed 2 = false ∧ (windowed [(0, 5)]).released = true ∧
        (windowed [(0, 5)]).topo.reshape = none ∧ Quiet (windowed [(0, 5)])) ∧
      (switching.topo.switchAt = some 149 ∧ ((149 : Nat) : Int) ≤ switching.job.frame) :=
  ⟨by decide, by decide +kernel, by decide +kernel, ⟨by decide +kernel, by decide, by decide, rfl, quiet _⟩, by decide⟩

/-! ## Management -/

/-- The request limit of the running second is reached; and settings with and without an address. -/
def managed (m : Mgmt) : State := { ready with mgmt := m }

/-- Gateway port 1 is up and holds an address. -/
def addressed : State := { ready with gws := [(1, { state := 2, address := 5 })] }

theorem meets_ManagementPortAndMirrorServe :
    (ready.dev.standbyOn = true ∧ 0 < (1 : Byte).toNat ∧ (32 : Byte).toNat ≤ 32 ∧ ready.mgmt.answered < 1000) ∧
      ((managed { answered := 1000 }).mgmt.second = (managed { answered := 1000 }).clock.uptime / 1000000000 ∧
        1000 ≤ (managed { answered := 1000 }).mgmt.answered) ∧
      ((managed { applied := { mode := 1, address := 5 } }).mgmt.applied.mode = 1 ∧
        (managed { applied := { mode := 1, address := 5 } }).mgmt.applied.address = 5) ∧
      ready.mgmt.applied.mode = 0 ∧ (managed { pending := { mode := 1, address := 5 } }).mgmt.pending.address ≠ 0 ∧
      ((managed { pending := { mode := 1 } }).mgmt.pending.mode = 1 ∧ (managed { pending := { mode := 1 } }).mgmt.pending.address = 0) ∧
      (gatewayUp.gwState (1 : Fin 2) = 2 ∧ (gatewayUp.gw (1 : Fin 2)).echoFrame (zeros 9158) ≤ 9216 ∧ addressed.gwState (1 : Fin 2) = 2 ∧
        (addressed.gw (1 : Fin 2)).address ≠ 0) ∧
      Quiet (managed { pending := { mode := 1, address := 5 } }) ∧ ready.mgmt.dynAddr = none ∧ Block.meridian ≠ .power ∧ Block.gateway ≠ .power ∧ (({} : Measured).fec = []) ∧
      ({ fec := [(1, 5)] } : Measured).fec = [(1, 5)] :=
  ⟨by decide, by decide, by decide, by decide, by decide, by decide, by decide +kernel, quiet _, by decide⟩

/-- The PMBus page stands at `n`. -/
def paged (n : Byte) : State := managed { page := n }

theorem meets_PmbusAndJtagRows :
    (ready.dev.standbyOn = true ∧ (40 : Byte).toNat ≤ 40 ∧ (1 : Byte) ≠ 0 ∧ ready.railOn = true) ∧
      (blank.dev.standbyOn = true ∧ blank.railOn = false) ∧
      (∀ n ∈ [0, 15, 16, 23, 24, 31, 32, 38, 39, 40], (paged (BitVec.ofNat 8 n)).railOn = true ∧ (paged (BitVec.ofNat 8 n)).mgmt.page.toNat = n) ∧
      (ready.dev.vin48 = true ∧ blank.dev.vin48 = true ∧ blank.dev.state = .held ∧ blank.dev.firmware = false ∧ ready.dev.state ≠ .held ∧
        configurable.dev.state = .held ∧ configurable.dev.firmware = true) := by
  decide

/-! ## Field tests, frames and the meridian counter -/

/-- A test of core 0: forced, running, or neither. -/
def tested (t : TestRec) : State := { ready with cores := [(0, { test := t, scoreboard := decide (t.state = .running), saved := some ([], []) })] }

/-- Core 0's test, begun in another frame, is to go on in one that is cleared for tests. -/
def interrupted : State :=
  { running with cores := [(0, { test := { state := .running } })], power := { cleared := [4] } }

/-- FIELD_TEST waits for the running test of core 0. -/
def awaited : State := sent 6 0x0604 (tested { state := .running, tags := [9] })

theorem meets_FieldTestsStartAndEnd :
    (Fetched 6 0x0604 (cmd) (sent 6 0x0604 ready) ∧ (sent 6 0x0604 ready).testable (120 : Byte).toNat = false ∧
        (sent 6 0x0604 ready).dev.state = .ready ∧ (sent 6 0x0604 ready).testOpen (119 : Byte).toNat = true) ∧
      ((tested { forced := true }).testOpen (0 : Fin 120) = true ∧ ((tested { forced := true }).core ((tested { forced := true }).phys (0 : Fin 120))).test.forced = true) ∧
      (ready.testOpen (0 : Fin 120) = true ∧ (ready.core (ready.phys (0 : Fin 120))).test.forced = false ∧
        ready.nextTest ready.integ.testTurn = some (0 : Fin 120).val ∧ ready.job.bind = none) ∧
      (let s := interrupted
       s.testOpen (0 : Fin 120) = true ∧ (s.core (s.phys (0 : Fin 120))).test.forced = false ∧ s.power.cleared.contains 4 = true ∧
        s.power.testSpent = false ∧ (s.core (s.phys (0 : Fin 120))).test.state = .running) ∧
      (ready.testable (0 : Fin 120) = true ∧ ready.dev.mainOn = true ∧ (ready.core (ready.phys (0 : Fin 120))).scoreboard = false ∧ (ready.core (ready.phys (0 : Fin 120))).test.state ≠ .running ∧
        (ready.core (ready.phys (0 : Fin 120))).test.late = false ∧ Quiet ready) ∧
      (let s := tested { state := .running }
       s.testable (0 : Fin 120) = true ∧ (s.core (s.phys (0 : Fin 120))).test.state = .running ∧
        (s.core (s.phys (0 : Fin 120))).scoreboard = true ∧ (s.core (s.phys (0 : Fin 120))).test.tags = [] ∧
        (s.core (s.phys (0 : Fin 120))).test.rerun = false ∧ (s.core (s.phys (0 : Fin 120))).test.trial = false ∧
        ({ passed := true } : TestResult).passed = true ∧ (s.core (s.phys (0 : Fin 120))).saved = some ([], []) ∧
        ({ passed := false } : TestResult).passed = false) ∧
      (awaited.testable (0 : Fin 120) = true ∧ (awaited.core (awaited.phys (0 : Fin 120))).test.state = .running ∧
        (awaited.core (awaited.phys (0 : Fin 120))).scoreboard = true ∧ (awaited.core (awaited.phys (0 : Fin 120))).test.rerun = false ∧
        (awaited.core (awaited.phys (0 : Fin 120))).test.trial = false ∧ (awaited.core (awaited.phys (0 : Fin 120))).test.tags = [(cmd).tag] ∧
        (awaited.mbox 6).inFlight = [⟨9, 0x0604, 0, 1000000000, false⟩] ∧ (awaited.mbox 6).dropped = [] ∧ awaited.cofin.up = true ∧
        (awaited.mbox 6).noRoom = false) :=
  ⟨⟨fetched .., by decide +kernel, rfl, by decide +kernel⟩, by decide +kernel, by decide +kernel, by decide +kernel,
    ⟨by decide +kernel, rfl, by decide +kernel, by decide +kernel, by decide +kernel, quiet _⟩, by decide +kernel, by decide +kernel⟩

/-- Between two ticks: idle, and with a dispatch whose first frame is the next. -/
def ticking (d : List Dispatch) : State :=
  { loaded with job := { loaded.job with ticking := true, frame := 4, tickAt := 140000, dispatches := d } }

def nextDispatch : Dispatch := { slot := 0, first := 5, step := 3, phaseSeq := 0, tag := 8, contour := some 0 }

/-- In a frame, idle, and with an attempt whose core 0 has work left. -/
def inFrame : State := { running with job := { bind := some binding, open_ := true, tickAt := 140000, frame := 4 } }
def overrunning : State :=
  { inFrame with
    job := { inFrame.job with attempt := some { step := 3 }, running := some nextDispatch }
    cores := [(0, { strands := [(0, { st := .ready, work := true })] })] }

/-- Port 0 is bonded over link 0, toward +X. -/
def linked (s : State) : State :=
  { s with
    ports := [(0, { state := .narrow, bearing := 0, cfgBearing := 0, links := 1, bonded := 1 })]
    links := [(0, { state := .up, wide := true, lanesOk := 0xF, port := 0, inService := true })] }

theorem meets_TicksAndDeadlines :
    (let s := ticking []
     s.job.bind = some binding ∧ s.job.open_ = false ∧ s.job.attempt = none ∧ s.mer.unlockDue = false ∧ s.job.splitDue = false ∧
      s.power.floor = false ∧ s.power.unmetDue = false ∧ (∀ h, (s.hub h).due = [] ∧ (s.hub h).waiting = []) ∧ s.job.ticking = true ∧
      s.job.dispatches = [] ∧ Steady s) ∧
      (let s := ticking [nextDispatch]
       s.job.bind = some binding ∧ s.job.open_ = false ∧ s.job.attempt = none ∧ s.mer.unlockDue = false ∧ s.job.splitDue = false ∧
        s.power.floor = false ∧ s.power.unmetDue = false ∧ (∀ h, (s.hub h).due = [] ∧ (s.hub h).waiting = []) ∧ s.job.ticking = true ∧
        s.job.dispatches = [nextDispatch] ∧ nextDispatch.done = false ∧ nextDispatch.contour = some 0 ∧
        nextDispatch.first = 5 ∧ s.job.suspended = false ∧ s.mer.lock = 2 ∧ (Tab.get {} nextDispatch.slot s.job.slots).loading = none ∧
        ((s.job.tickAt + binding.period : Nat) - (binding.baseTick : Int)) / binding.period = (5 : Nat) ∧
        s.topo.window = none ∧ s.topo.switchAt = none ∧ s.topo.reshape = none) ∧
      (let s := linked inFrame
       s.job.bind = some binding ∧ s.job.open_ = true ∧ s.job.neighbours = [] ∧ s.dataLinks = [0] ∧ SideIdle s 0 ∧ s.job.attempt = none ∧ Steady s) ∧
      (let s := linked overrunning
       s.job.bind = some binding ∧ s.job.open_ = true ∧ s.job.neighbours = [] ∧ s.dataLinks = [0] ∧ SideIdle s 0 ∧
        s.job.attempt = some { step := 3 } ∧ ({ step := 3 } : Attempt).window = none ∧ ({ step := 3 } : Attempt).stopFrom = none ∧
        ({ step := 3 } : Attempt).abortFo = none ∧ s.job.running.isSome = true ∧ s.job.overrunSeen = false ∧
        s.cores ≠ [] ∧ ∀ e ∈ s.cores, e.2.unfinished = true) :=
  ⟨⟨rfl, rfl, rfl, rfl, rfl, rfl, rfl, fun _ => ⟨rfl, rfl⟩, rfl, rfl, by decide, by decide, by decide, by decide, by decide⟩,
    ⟨rfl, rfl, rfl, rfl, rfl, rfl, rfl, fun _ => ⟨rfl, rfl⟩, by decide +kernel⟩,
    ⟨rfl, rfl, rfl, by decide +kernel, ⟨by decide, by decide⟩, rfl, by decide, by decide, by decide, by decide, by decide⟩,
    rfl, rfl, rfl, by decide +kernel, ⟨by decide, by decide⟩, by decide +kernel⟩

/-- A side message of type 1 whose CRC is wrong. -/
def badBoundary : BitVec 128 := 1

theorem meets_BoundaryMessagesAndFrameAborts :
    ((linked running).job.bind = some binding ∧ ((linked running).portOfBonded (0 : Fin 24)).isSome = true ∧ badBoundary.toNat % 256 = 1 ∧
        (crc16 (leBytes 14 badBoundary.toNat)).toNat ≠ badBoundary.toNat / 2 ^ 112) ∧
      ((8 : BitVec 16) ≠ binding.jobTag ∧ (1 : Byte) ≠ running.attemptTag) ∧
      (overrunning.job.bind = some binding ∧ overrunning.job.attempt = some { step := 3 } ∧ ({ step := 3 } : Attempt).step = 3 ∧ ({ step := 3 } : Attempt).abortFo = none ∧
        ({ step := 3 } : Attempt).stopFrom = none ∧ (0 : Byte) = overrunning.attemptTag) := by
  decide +kernel

/-- The counter: at the root, Locked with two bad offsets behind it, and Acquiring one good offset short of lock. -/
def metered (m : Meridian) : State := { linked ready with mer := m }
def follower : Meridian := { lock := 1, good := 7, upstream := 1, depth := 1 }

/-- A side message is being sent on link 0. -/
def sideSending : State :=
  { ready with
    ports := (linked ready).ports
    links := [(0, { state := .up, wide := true, lanesOk := 0xF, port := 0, inService := true, sideNow := some (2, 0) })] }

theorem meets_MeridianRowsMoveAndLockTheCounter :
    ((linked ready).carries (0 : Fin 24) = true ∧ SideIdle (linked ready) (0 : Fin 24) ∧ sideSending.carries (0 : Fin 24) = true ∧
        sideSending.sideBusy (0 : Fin 24) = true) ∧
      ((linked ready).mer.root = true ∧ (0 : Int) - 0 + (70000 - 0) ≤ 70000 ∧
        70000 < (1 : Int) - 0 + (70000 - 0) ∧ ((linked ready).link (0 : Fin 24)).tooLong = false ∧ Quiet (linked ready)) ∧
      (∀ lock ∈ [1, 3], let s := metered { follower with lock := BitVec.ofNat 2 lock }
        s.carries (0 : Fin 24) = true ∧ s.mer.root = false ∧ s.upstreamLinks = [(0 : Fin 24).val] ∧ s.mer.round = [] ∧
        s.mer.lock = BitVec.ofNat 2 lock ∧ s.mer.good = 7 ∧ ((500 : Int) - 0 - (0 - 0)).natAbs ≤ 500) ∧
      (∀ lock ∈ [2, 3], let s := metered { lock := BitVec.ofNat 2 lock, bad := 2, upstream := 1, depth := 1 }
        s.carries (0 : Fin 24) = true ∧ s.mer.root = false ∧ s.upstreamLinks = [(0 : Fin 24).val] ∧ s.mer.round = [] ∧
        s.mer.lock = BitVec.ofNat 2 lock ∧ s.mer.bad = 2 ∧ 5000 < ((-5001 : Int) - 0 - (0 - 0)).natAbs ∧ s.job.bind = none) ∧
      ((metered { lock := 2 }).mer.lock = 2 ∧ (metered { lock := 2 }).mer.root = false) ∧
      ((metered { lock := 3, holdoverAt := some 5 }).mer.lock = 3 ∧ (metered { lock := 3, holdoverAt := some 5 }).mer.holdoverAt = some 5) ∧
      (let s := metered { follower with offsets := [(0, some (4200, 0))] }
       s.mer.lock = 1 ∧ s.mer.root = false ∧ s.mer.stepped = false ∧ s.mer.upstream ≠ 0 ∧ s.upstreamOffsets ≠ [] ∧ s.job.attempt = none) ∧
      (let s := metered { slew := some (-10000, 0, 7) }
       s.mer.slew = some (-10000, 0, 7) ∧ s.clock.uptime = 0 ∧ s.clock.phase = 0 ∧ s.mer.trim = 0 ∧ s.mer.learned = 0) :=
  ⟨⟨by decide +kernel, ⟨by decide, by decide⟩, by decide +kernel, by decide⟩, ⟨rfl, by decide, by decide, by decide, quiet _⟩, by decide +kernel,
    by decide +kernel, by decide, by decide, by decide +kernel, by decide⟩

end Sys2Proof.Tests
end

