-- ==== Sys2Proof/Tests/Witnesses4.lean ====
section
/-! SUPPORT. Witnesses for the statements about macro-ops. -/
namespace Sys2Proof.Tests

set_option Elab.async false

open Sys2Proof.Machine

/-! ## A bench for one macro-op

Strand 0 of core 0 of a scoreboard plan holds the macro-op and a FRAME_END; core 1 has work of its own. -/

/-- The plan: a tile of 1 by 16 in FP32 and one of indices, a vector program, and an update program on tensor 5. -/
def onePlan (o : RawOp) : Plan :=
  { scorePlan with
    tiles := [{ cols := 16 }, { fmt := 0xC, cols := 1, base := 64 }, { base := 5 * 2 ^ 32, space := spSheet, cols := 16 }]
    code := [{ cores := some 0 :: List.replicate 119 none, blocks := [⟨some 0 :: List.replicate 63 none, [o, ⟨4, {}⟩]⟩], tokens := [] }]
    vectors := [[⟨1, 0, 0, 0, 0, 0⟩]]
    updates := [{ nops := 0, kind := 0, rnd := 0, nacc := 1, stream := 0, instrs := [] }] }

def benched (o : RawOp) : Resident := { resident with plan := onePlan o, lines := [(0, 0)] }

def onBench (base : State) (o : RawOp) : State :=
  { base with
    job := { base.job with score := some 9, slots := [(4, { plan := some (benched o) })] }
    cores := [(0, { scoreboard := true, lines := [0], strands := [(0, { st := .ready, work := true })] }),
              (1, { scoreboard := true, strands := [(0, { st := .ready, work := true })] })] }

def bench (o : RawOp) : State := onBench ready o
def seatOf (o : RawOp) : Seat := { p := 0, n := 0, slot := 4, r := benched o, variant := none, block := 0, token := false }
def issue0 : Issue := { core := 0, strand := 0 }

theorem atHead {oc : Nat} {m : MacroOp} {s : State} {o : RawOp}
    (h : (s.seat issue0.core.val = some (seatOf o) ∧ s.issues (seatOf o) = true ∧ (s.strand (seatOf o).p issue0.strand.val).work = true ∧
      ((seatOf o).native issue0.strand.val)[(s.strand (seatOf o).p issue0.strand.val).pc]? = some o ∧ o.opcode = oc ∧ o.op = m ∧
      s.blocked (seatOf o) issue0.strand.val o (s.footprint (seatOf o) o) = none ∧ issue0.upset = .none ∧ (seatOf o).r.plan.twin = false ∧
      s.chosen (seatOf o) issue0.strand.val = true ∧ (∀ f ∈ (s.core (seatOf o).p).flights, f.id < (s.core (seatOf o).p).nextId) ∧ s.hbmCalm = true)) :
    AtHead issue0 oc m (seatOf o) o s := h

theorem meets_SequencerMacroOpsIssueAndComplete :
    (∀ oc ∈ [0, 1, 2, ocFence, ocFrameEnd], AtHead issue0 oc {} (seatOf ⟨oc, {}⟩) ⟨oc, {}⟩ (bench ⟨oc, {}⟩) ∧
        Tab.get 0 (({} : MacroOp).postQ.val) ((bench ⟨oc, {}⟩).core 0).queues + ({} : MacroOp).postN.toNat ≤ 64) ∧
      RunGoesOn 0 (bench ⟨ocFrameEnd, {}⟩) := by
  refine ⟨fun oc h => ?_, (1, _), List.mem_cons_of_mem _ (List.mem_singleton_self _), by decide⟩
  simp only [List.mem_cons, List.not_mem_nil, or_false] at h
  rcases h with rfl | rfl | rfl | rfl | rfl <;> exact ⟨atHead (by decide +kernel), by decide +kernel⟩

/-- Operands: the FP32 tile, the FP32 tile, the indices. -/
def three : MacroOp := { op0 := 0, op1 := 0, op2 := 1 }
def row : View := { area := .tile 0, d := { cols := 16 } }
def index : View := { area := .tile 0, d := { fmt := 0xC, cols := 1, base := 64 } }
def begun (o : RawOp) : State := (bench o).advanceStrand (seatOf o) 0 o

theorem meets_MoverMacroOpsMoveTheirTiles :
    (∀ oc ∈ [ocLoad, ocStore, ocGather, ocScatter, ocFill],
        AtHead issue0 oc three (seatOf ⟨oc, three⟩) ⟨oc, three⟩ (bench ⟨oc, three⟩) ∧
          (begun ⟨oc, three⟩).seatView (seatOf ⟨oc, three⟩) three.op0 = some row ∧
          (begun ⟨oc, three⟩).seatView (seatOf ⟨oc, three⟩) three.op1 = some row ∧ (begun ⟨oc, three⟩).poisonIn row = none ∧
          (begun ⟨oc, three⟩).seatView (seatOf ⟨oc, three⟩) three.op2 = some index ∧ (begun ⟨oc, three⟩).poisonIn index = none) ∧
      (begun ⟨ocFill, three⟩).replayOf (seatOf ⟨ocFill, three⟩) three.op0 row = none := by
  refine ⟨fun oc h => ?_, by decide +kernel⟩
  simp only [List.mem_cons, List.not_mem_nil, or_false] at h
  rcases h with rfl | rfl | rfl | rfl | rfl <;> exact ⟨atHead (by decide +kernel), by decide +kernel⟩

theorem idle (u : ExecUnit) (o : RawOp) : UnitIdle u 0 (bench o) := by
  intro f h
  have e : ((bench o).core 0).flights = [] := rfl
  rw [e] at h
  exact absurd h (List.not_mem_nil)

/-- A macro-op of the unit is in flight on core 0, from strand 1. -/
def occupied (kind : OpKind) (o : RawOp) : State :=
  { bench o with
    cores := [(0, { scoreboard := true, lines := [0], strands := [(0, { st := .ready, work := true })], nextId := 7
                    flights := [{ id := 6, strand := 1, kind := kind, postQ := 0, postN := 0, regions := [] }] })] }

theorem meets_MatrixAndVectorMacroOps_waiting :
    ∀ e ∈ [(ocMma, OpKind.mma), (ocMmas, OpKind.mmas), (ocVprog, OpKind.vprog), (ocVred, OpKind.vred), (ocSeed, OpKind.seed)],
      let s := occupied e.2 ⟨e.1, three⟩
      AtHead issue0 e.1 three (seatOf ⟨e.1, three⟩) ⟨e.1, three⟩ s ∧ ∃ f ∈ (s.core 0).flights, f.kind.unit = e.2.unit := by
  intro e h
  simp only [List.mem_cons, List.not_mem_nil, or_false] at h
  rcases h with rfl | rfl | rfl | rfl | rfl <;> exact ⟨atHead (by decide +kernel), by decide +kernel⟩

theorem meets_MatrixAndVectorMacroOps :
    (∀ oc ∈ [ocMma, ocMmas],
        AtHead issue0 oc three (seatOf ⟨oc, three⟩) ⟨oc, three⟩ (bench ⟨oc, three⟩) ∧
          (begun ⟨oc, three⟩).seatView (seatOf ⟨oc, three⟩) three.op0 = some row ∧
          (begun ⟨oc, three⟩).seatView (seatOf ⟨oc, three⟩) three.op1 = some row ∧
          (begun ⟨oc, three⟩).seatView (seatOf ⟨oc, three⟩) three.op2 = some index ∧ ((bench ⟨oc, three⟩).core 0).mxDead = false ∧
          UnitIdle .mx 0 (bench ⟨oc, three⟩) ∧
          (∀ v ∈ viewsOf (mmaReads three) (seatOf ⟨oc, three⟩) (begun ⟨oc, three⟩), (begun ⟨oc, three⟩).poisonIn v = none) ∧
          (begun ⟨oc, three⟩).seatView (seatOf ⟨oc, three⟩) (withDesc three.op0 (opExt three.op0)) = some row) ∧
      (let o : RawOp := ⟨ocVprog, three⟩
       AtHead issue0 ocVprog three (seatOf o) o (bench o) ∧ UnitIdle .vx 0 (bench o) ∧ (begun o).seatView (seatOf o) three.op0 = some row ∧
        (seatOf o).r.plan.vectors[opExt three.op0]? = some [⟨1, 0, 0, 0, 0, 0⟩] ∧
        (∀ v ∈ viewsOf [three.op1, three.op2] (seatOf o) (begun o), (begun o).poisonIn v = none) ∧
        (begun o).replayOf (seatOf o) three.op0 row = none) ∧
      (let o : RawOp := ⟨ocVred, three⟩
       AtHead issue0 ocVred three (seatOf o) o (bench o) ∧ UnitIdle .vx 0 (bench o) ∧ (begun o).seatView (seatOf o) three.op0 = some row ∧
        (begun o).seatView (seatOf o) three.op1 = some row ∧ (begun o).poisonIn row = none ∧ (begun o).replayOf (seatOf o) three.op0 row = none) ∧
      AtHead issue0 ocSeed three (seatOf ⟨ocSeed, three⟩) ⟨ocSeed, three⟩ (bench ⟨ocSeed, three⟩) ∧ UnitIdle .vx 0 (bench ⟨ocSeed, three⟩) := by
  refine ⟨fun oc h => ?_, ⟨atHead (by decide +kernel), idle _ _, by decide +kernel⟩, ⟨atHead (by decide +kernel), idle _ _, by decide +kernel⟩,
    atHead (by decide +kernel), idle _ _⟩
  simp only [List.mem_cons, List.not_mem_nil, or_false] at h
  rcases h with rfl | rfl <;>
    exact ⟨atHead (by decide +kernel), by decide +kernel, by decide +kernel, by decide +kernel, rfl, idle _ _, by decide +kernel⟩

/-- `AtHead`, on a bench over any state. -/
def heads (base : State) (oc : Nat) (m : MacroOp) : Prop := AtHead issue0 oc m (seatOf ⟨oc, m⟩) ⟨oc, m⟩ (onBench base ⟨oc, m⟩)
def onward (base : State) (oc : Nat) (m : MacroOp) : State := (onBench base ⟨oc, m⟩).advanceStrand (seatOf ⟨oc, m⟩) 0 ⟨oc, m⟩

/-- A slot of circuit 0 that its RECV has not taken yet. -/
def slot0 : Slot :=
  { circuit := 0, postQ := 3, postN := 1, dstCore := 0, lastSlot := true, attempt := 0, frameLo := 4, jobTag := 7, payload := zeros 64, crc := 0 }
def holding : State := { laidOut with router := { slotBuf := [⟨0, slot0, none⟩] } }

/-- The target of a PUT: rank 5, which no entry of the gazetteer maps. -/
def away : MacroOp := { op0 := 0, op1 := 0, op2 := 5 }
/-- CRED from a tile to itself, at tree level 0: the network form, and the local one. -/
def pair : MacroOp := { op0 := 0, op1 := 0, op2 := 0 }
def localPair : MacroOp := { pair with flags := 16 }

theorem meets_NetworkMacroOpsIssue :
    (∀ oc ∈ [ocSend, ocRecv, ocPut, ocGet], heads laidOut oc pair ∧
        (onward laidOut oc pair).seatView (seatOf ⟨oc, pair⟩) pair.op0 = some row ∧
        (onward laidOut oc pair).seatView (seatOf ⟨oc, pair⟩) pair.op1 = some row ∧ (onward laidOut oc pair).poisonIn row = none) ∧
      (onward laidOut ocRecv pair).heldFor (opExt pair.op0) = none ∧
      (heads holding ocRecv pair ∧ (onward holding ocRecv pair).heldFor (opExt pair.op0) = some ⟨0, slot0, none⟩) ∧
      ((onBench laidOut ⟨ocPut, pair⟩).topo.gaz = some gaz1 ∧ gaz1.coord (gaz1.target pair.op2) = some 0) ∧
      (heads laidOut ocCred localPair ∧ opLocal localPair = true) ∧
      (heads laidOut ocCred pair ∧ opLocal pair = false ∧ (onward laidOut ocCred pair).heldFor (opExt pair.op0) = none) := by
  refine ⟨fun oc h => ?_, by decide +kernel, ⟨atHead (by decide +kernel), by decide +kernel⟩, by decide +kernel,
    ⟨atHead (by decide +kernel), by decide +kernel⟩, atHead (by decide +kernel), by decide +kernel⟩
  simp only [List.mem_cons, List.not_mem_nil, or_false] at h
  rcases h with rfl | rfl | rfl | rfl <;> exact ⟨atHead (by decide +kernel), by decide +kernel⟩

theorem meets_UnmappedRankSendsNothingAndOverruns :
    (∀ oc ∈ [ocPut, ocGet], heads laidOut oc away ∧ (onBench laidOut ⟨oc, away⟩).topo.gaz = some gaz1 ∧ gaz1.jobSize ≤ gaz1.target away.op2 ∧
        Quiet (onBench laidOut ⟨oc, away⟩) ∧ (onward laidOut oc away).seatView (seatOf ⟨oc, away⟩) away.op0 = some row ∧
        (onward laidOut oc away).seatView (seatOf ⟨oc, away⟩) away.op1 = some row ∧ (onward laidOut oc away).poisonIn row = none) := by
  intro oc h
  simp only [List.mem_cons, List.not_mem_nil, or_false] at h
  rcases h with rfl | rfl <;> exact ⟨atHead (by decide +kernel), rfl, by decide +kernel, quiet _, by decide +kernel⟩

/-- The row of tensor 5, its update program, and no list of indices. -/
def onSheet : MacroOp := { op0 := 2, op1 := 0, op2 := 0xFFFF }
def sheetRow : View := { area := .sheet 5 0 0, d := { base := 5 * 2 ^ 32, space := spSheet, cols := 16 } }
def site : UpdSite :=
  { t := tensorOf tensorParams, g := { nops := 0, kind := 0, rnd := 0, nacc := 1, stream := 0, instrs := [] }, slot := 0, variant := 0, view := sheetRow }

/-- Tensor 5 is versioned, and no granule has a previous version. -/
def versionedBench : State :=
  (onBench tensored ⟨ocUpdb, onSheet⟩).onJob fun j => { j with tensors := j.tensors.map fun t => { t with versioned := true } }

theorem meets_HubMacroOpsIssue :
    (let s := onBench laidOut ⟨ocTurn, pair⟩
     heads laidOut ocTurn pair ∧ (s.hub (hubOf 0)).full = false ∧ s.seatView (seatOf ⟨ocTurn, pair⟩) pair.op0 = some row ∧
        s.seatView (seatOf ⟨ocTurn, pair⟩) pair.op1 = some row ∧ s.poisonIn row = none) ∧
      (∀ oc ∈ [ocUpda, ocUpdb, ocUpds], let s := onBench tensored ⟨oc, onSheet⟩
        heads tensored oc onSheet ∧ s.updSite (seatOf ⟨oc, onSheet⟩) onSheet = some site ∧ (s.hub site.t.hub).full = false ∧
        (∀ r ∈ updReads onSheet oc (seatOf ⟨oc, onSheet⟩) s, s.poisonIn r = none) ∧
        s.seatView (seatOf ⟨oc, onSheet⟩) onSheet.op1 = some row ∧ site.t.versioned = false) ∧
      (let s := versionedBench
       s.updSite (seatOf ⟨ocUpdb, onSheet⟩) onSheet = some { site with t := { site.t with versioned := true } } ∧
        ∀ dk, (s.resolve dk).2.1 = false) := by
  refine ⟨⟨atHead (by decide +kernel), by decide +kernel⟩, fun oc h => ?_, by decide +kernel, fun dk => ?_⟩
  · simp only [List.mem_cons, List.not_mem_nil, or_false] at h
    rcases h with rfl | rfl | rfl <;> exact ⟨atHead (by decide +kernel), by decide +kernel⟩
  · have e : versionedBench.dir = [] := rfl
    have h : versionedBench.hub (versionedBench.dirHub dk) = {} := by
      have e : versionedBench.hubs = [] := rfl
      simp [State.hub, e, Tab.get]
    simp only [State.resolve, e, h, Tab.get]
    split <;> rfl

/-- A NOP's bench, with a TURN in flight that posts a token to queue 2 and holds a slot of hub 0, and a code refill. -/
def flying : State :=
  { bench ⟨0, {}⟩ with
    cores := [(0, { scoreboard := true, lines := [0], strands := [(0, { st := .waitFence, work := true, hold := .fence })], refills := [4]
                    flights := [{ id := 6, strand := 0, kind := .turn, postQ := 2, postN := 1, regions := [], hub := some 0 }] })]
    hubs := [(0, { slots := 1, turnQueue := [(0, 6)] })] }
def flight6 : Flight := { id := 6, strand := 0, kind := .turn, postQ := 2, postN := 1, regions := [], hub := some 0 }

theorem meets_MacroOpsCompleteAndRefillsEnd :
    (flying.seat (0 : Fin 120).val = some (seatOf ⟨0, {}⟩) ∧ (seatOf ⟨0, {}⟩).r.plan.twin = false ∧ (flying.core (seatOf ⟨0, {}⟩).p).flights = [flight6] ∧
        flying.mayComplete (seatOf ⟨0, {}⟩).p flight6 = true ∧ flight6.withheld = false ∧ flight6.kind.unit ≠ .mx ∧ flight6.hub = some 0 ∧
        (flying.hub 0).waiting = [] ∧
        Tab.get 0 flight6.postQ (flying.core (seatOf ⟨0, {}⟩).p).queues + flight6.postN ≤ 64 ∧
        (flying.strand (seatOf ⟨0, {}⟩).p flight6.strand).hold ≠ .frameEnd) ∧
      (let f : Flight := { flight6 with kind := .mma, hub := none }
       let s := { flying with
         cores := [(0, { scoreboard := true, lines := [0], strands := [(0, { st := .waitFence, work := true, hold := .fence })], flights := [f] })] }
       s.seat (0 : Fin 120).val = some (seatOf ⟨0, {}⟩) ∧ (s.core (seatOf ⟨0, {}⟩).p).flights = [f] ∧ s.mayComplete (seatOf ⟨0, {}⟩).p f = true ∧
        f.withheld = false ∧ f.kind.unit = .mx ∧ (s.core (seatOf ⟨0, {}⟩).p).mismatch = none ∧ f.hub = none) ∧
      (flying.core (flying.phys (0 : Fin 120))).refills.contains 4 = true ∧ (flying.core (flying.phys (0 : Fin 120))).wanted = [] ∧
      (flying.core (flying.phys (0 : Fin 120))).preloads.contains 4 = false ∧
      flying.runPoisoned (codeKey (flying.phys (0 : Fin 120)) 4 0) 2048 = false ∧ flying.hbmCalm = true := by
  decide +kernel

end Sys2Proof.Tests
end

