-- ==== Sys2Proof/Tests/Witnesses5.lean ====
section
/-! SUPPORT. Witnesses for the statements about HBM, links, circuits, packets, the seal, the cartouche and the gateway. -/
namespace Sys2Proof.Tests

set_option Elab.async false

open Sys2Proof.Machine

/-! ## HBM and links -/

/-- READY, or a bound job, with hub 0 as given. -/
def hubbed (h : Hub) : State := { ready with hubs := [(0, h)] }
def hubbedJob (h : Hub) : State := { overrunning with hubs := [(0, h)] }
def copying : Repair := { chan := 3, blind := false }

/-- Hub 0 trained all its channels at 20 °C; stack 0 stands at 28 °C. -/
def warmed : State := { ready with hbmStacks := [(0, { heat := { temp := 224 } })], hubs := [(0, { trained := [(3, some (5, 160))] })] }

/-- Block 1 of channel 12's row at 11 above R_S, in hub 2, lies in the own granule of tensor 5. -/
theorem meets_HbmUpkeepRows_sheet :
    tensored.hbmUp = true ∧ (tensored.stack (stackOf (2 : Fin 8) (12 : Fin 93))).stopped = false ∧ Quiet tensored ∧ tensored.rowSplit ≤ 262155 ∧
      (262155 < 524288) ∧ ∃ key, tensored.sheetKeyAt (2 : Fin 8) (tensored.nearOffset (12 : Fin 93) 262155 + 64 * (1 : Fin 64)) = some key ∧
        2 ^ 100 ≤ key ∧ key < 2 ^ 101 ∧ (tensored.resolve ((key - 2 ^ 100) / 4096 / 2)).1.toNat = (key - 2 ^ 100) / 4096 % 2 ∧
        tensored.sealSt.asked.contains ((key - 2 ^ 100) / 4096 / 2) = false :=
  ⟨rfl, rfl, quiet _, by decide, by decide, 1267747314293798571830679699520, by decide +kernel⟩

theorem meets_HbmUpkeepRows :
    (0 < ready.rowSplit ∧ ready.sheetKeyAt (0 : Fin 8) (ready.nearOffset (3 : Fin 93) 524287 + 64 * (63 : Fin 64)) = none ∧ 524287 < 524288 ∧ ready.hbmUp = true ∧ (ready.stack (stackOf (0 : Fin 8) (3 : Fin 93))).stopped = false ∧ Quiet ready) ∧
      ((ready.hub (0 : Fin 8)).due = [] ∧ (ready.hub (0 : Fin 8)).retraining = none ∧ (ready.hub (0 : Fin 8)).repair = none) ∧
      (warmed.hbmUp = true ∧ (warmed.stack (stackOf (0 : Fin 8) (3 : Fin 93))).stopped = false ∧ (warmed.hub (0 : Fin 8)).due = [] ∧
        warmed.movedSince (0 : Fin 8) (3 : Fin 93) = true ∧ (warmed.hub (0 : Fin 8)).retraining = none ∧ (warmed.hub (0 : Fin 8)).repair = none) ∧
      ((hubbedJob { retraining := some 3 }).job.bind.isSome = true ∧
        ((hubbedJob { retraining := some 3 }).hub (0 : Fin 8)).retraining = some (3 : Fin 93).val ∧
        (hubbedJob { retraining := some 3 }).router.parked = [] ∧ ((hubbedJob { retraining := some 3 }).hub (0 : Fin 8)).retries = 0) ∧
      (let s := hubbedJob { retraining := some 3, retries := 1 }
       (s.hub (0 : Fin 8)).retraining = some (3 : Fin 93).val ∧ (s.hub (0 : Fin 8)).retries ≠ 0 ∧ s.router.parked = [] ∧ (s.hub (0 : Fin 8)).repair = none ∧
        (s.hub (0 : Fin 8)).repairQueue = [] ∧ (s.stack (stackOf (0 : Fin 8) (3 : Fin 93))).spareUsed = false ∧
        (s.stack (stackOf (0 : Fin 8) (3 : Fin 93))).spareBad = false ∧ s.job.bind.isSome = true ∧ Quiet s) ∧
      (let s := hubbedJob { due := [(3, 500)] }
       (s.hub (0 : Fin 8)).due = [((3 : Fin 93).val, 500)] ∧ (s.hub (0 : Fin 8)).overdue = [] ∧ Quiet s ∧ s.job.attempt.isSome = true) ∧
      (let s := hubbed { repair := some copying }
       (s.hub (0 : Fin 8)).repair = some copying ∧ s.router.parked = [] ∧ copying.blind = false ∧ (s.hub (0 : Fin 8)).repairQueue = [] ∧ (s.hub (0 : Fin 8)).due = [] ∧
        Quiet s) ∧
      (let s := hubbedJob { repair := some copying, due := [(3, 500)] }
       (s.hub (0 : Fin 8)).repair = some copying ∧ s.router.parked = [] ∧ (s.hub (0 : Fin 8)).repairQueue = [] ∧ s.job.bind.isSome = true ∧ Quiet s) ∧
      (let s := { hubbed { sweeping := true, rollback := true, commit := 2, prevCommit := 1 } with dir := [(5, ({ cur := true, epoch := 2 } : DirEntry))] }
       (s.hub (0 : Fin 8)).sweeping = true ∧ (s.hub (0 : Fin 8)).rollback = true ∧ s.sweepRuns (0 : Fin 8) = true ∧
        Tab.wf ({} : DirEntry) s.dir = true) ∧
      (let s := hubbed { sweeping := true, commit := 2 }
       (s.hub (0 : Fin 8)).sweeping = true ∧ (s.hub (0 : Fin 8)).rollback = false ∧ s.sweepRuns (0 : Fin 8) = true) ∧
      (let s := hubbedJob { sweeping := true }
       (s.hub (0 : Fin 8)).sweeping = true ∧ s.sweepRuns (0 : Fin 8) = false) :=
  ⟨⟨by decide, by decide +kernel, by decide, rfl, rfl, quiet _⟩, by decide, by decide +kernel, by decide,
    ⟨rfl, by decide, rfl, rfl, rfl, rfl, rfl, rfl, quiet _⟩, ⟨rfl, rfl, quiet _, rfl⟩,
    ⟨rfl, rfl, rfl, rfl, rfl, quiet _⟩, ⟨rfl, rfl, rfl, rfl, quiet _⟩, by decide, by decide, by decide +kernel⟩

/-- READY with link 0 as given. -/
def overLink (l : Link) : State := { ready with links := [(0, l)] }
def good : Link := { state := .up, wide := true, lanesOk := 0xF }

/-- Codewords of four lanes with link field `f`: all sound, one of them wrong beyond correction, none sound. -/
def word (f : BitVec 20) (wrong : Nat) : Codeword := { wrong, link := f, data := [] }
def words (f : BitVec 20) : List Codeword := List.replicate 4 (word f 15)
def oneBad (f : BitVec 20) : List Codeword := word f 16 :: List.replicate 3 (word f 0)
def allBad : List Codeword := List.replicate 4 (word 0 16)

/-- Link 0 waits in service for its end of training, with what its far end sent. -/
def returning (l : Link) : State := overLink { l with state := .training, inService := true }

theorem meets_LinkRowsTrainAndRetry :
    (let s := overLink { state := .training }
     (s.link (0 : Fin 24)).state = .training ∧ (s.link (0 : Fin 24)).inService = false ∧ SideIdle s (0 : Fin 24) ∧ (s.link (0 : Fin 24)).unsent = [] ∧
        (0xF &&& 0xF : BitVec 4) = 0xF ∧ (0xE &&& 0xF : BitVec 4) = 0xE ∧ s.survey.state.toNat ≤ 1) ∧
      (let s := returning {}
       (s.link (0 : Fin 24)).state = .training ∧ (s.link (0 : Fin 24)).inService = true ∧ SideIdle s (0 : Fin 24) ∧
        (s.link (0 : Fin 24)).unsent = [] ∧ s.portOfBonded (0 : Fin 24) = none ∧ (s.link (0 : Fin 24)).farLanes = none ∧ s.survey.state.toNat ≤ 1) ∧
      (let s := returning { farLanes := some 0xF, wide := true }
       (s.link (0 : Fin 24)).wide = true ∧ s.survey.state.toNat ≤ 1 ∧ s.portOfBonded (0 : Fin 24) = none ∧ (s.link (0 : Fin 24)).farLanes = some 0xF ∧ (s.link (0 : Fin 24)).unsent = [] ∧
        (s.link (0 : Fin 24)).resume = none) ∧
      (let s := returning { farLanes := some 0xF, wide := true, resume := some 4, held := [⟨4, 0, [1], [3]⟩, ⟨5, 0, [2], []⟩] }
       s.portOfBonded (0 : Fin 24) = none ∧ (s.link (0 : Fin 24)).farLanes = some 0xF ∧ (s.link (0 : Fin 24)).unsent = [] ∧
        (s.link (0 : Fin 24)).resume = some 4 ∧ (s.link (0 : Fin 24)).held = ⟨4, 0, [1], [3]⟩ :: [⟨5, 0, [2], []⟩]) ∧
      (let s := overLink { state := .dark }
       s.inService = true ∧ ((s.link (0 : Fin 24)).state = .down ∨ (s.link (0 : Fin 24)).state = .dark) ∧
        (s.link (0 : Fin 24)).lastingDown = false ∧ (s.link (0 : Fin 24)).quiesced = false) ∧
      (((overLink good).link (0 : Fin 24)).state = .up ∧ Quiet (overLink good) ∧ ((overLink good).link (0 : Fin 24)).lanesOk = 0xF ∧
        100000000 < 100000001 ∧ ((overLink good).link (0 : Fin 24)).lanesOk.getLsbD (3 : Fin 4).val = true ∧
        ((overLink good).link (0 : Fin 24)).quiesced = false) ∧
      (((overLink { good with quiesced := true }).link (0 : Fin 24)).state = .up ∧
        ((overLink { good with quiesced := true }).link (0 : Fin 24)).lanesOk.getLsbD (3 : Fin 4).val = true ∧
        ((overLink { good with quiesced := true }).link (0 : Fin 24)).quiesced = true ∧ ((overLink { good with quiesced := true }).link (0 : Fin 24)).unsent = []) ∧
      (let s := overLink { good with held := [⟨4, 8, [], []⟩] }
       (s.link (0 : Fin 24)).state = .up ∧ Quiet s ∧ ∃ g ∈ (s.link (0 : Fin 24)).held, 8 ≤ g.resent) ∧
      (let s := overLink { good with held := [⟨4, 0, [1], [3]⟩, ⟨5, 0, [2], []⟩], rxSeq := 7 }
       (s.link (0 : Fin 24)).state = .up ∧ Quiet s ∧ (s.link (0 : Fin 24)).unsent = [] ∧
        (s.link (0 : Fin 24)).held = ⟨4, 0, [1], [3]⟩ :: [⟨5, 0, [2], []⟩] ∧ (∀ g ∈ [(⟨5, 0, [2], []⟩ : HeldGroup)], g.seq ≠ 4) ∧
        (words (linkField ((s.link (0 : Fin 24)).rxSeq + 1) 4 false 0)).length = (s.link (0 : Fin 24)).lanes.length ∧
        (words (linkField ((s.link (0 : Fin 24)).rxSeq + 1) 4 false 0)).find? codewordDecodes =
          some (word (linkField ((s.link (0 : Fin 24)).rxSeq + 1) 4 false 0) 15) ∧
        (∀ x ∈ words (linkField ((s.link (0 : Fin 24)).rxSeq + 1) 4 false 0), codewordDecodes x = true) ∧
        (words (linkField (s.link (0 : Fin 24)).rxSeq 4 true 0)).find? codewordDecodes = some (word (linkField (s.link (0 : Fin 24)).rxSeq 4 true 0) 15) ∧
        (∀ x ∈ words (linkField (s.link (0 : Fin 24)).rxSeq 4 true 0), codewordDecodes x = true) ∧
        (oneBad (linkField 9 4 false 0)).length = (s.link (0 : Fin 24)).lanes.length ∧
        (oneBad (linkField 9 4 false 0)).find? codewordDecodes = some (word (linkField 9 4 false 0) 0) ∧
        (∃ x ∈ oneBad (linkField 9 4 false 0), codewordDecodes x = false) ∧
        allBad.length = (s.link (0 : Fin 24)).lanes.length ∧ ∀ x ∈ allBad, codewordDecodes x = false) :=
  ⟨⟨rfl, rfl, ⟨by decide, by decide⟩, by decide⟩, ⟨rfl, rfl, ⟨by decide, by decide⟩, by decide⟩, by decide, by decide, by decide,
    ⟨rfl, quiet _, rfl, by decide, by decide, rfl⟩, by decide, ⟨rfl, quiet _, ⟨4, 8, [], []⟩, List.mem_singleton_self _, by decide⟩,
    rfl, quiet _, by decide +kernel⟩

/-! ## Circuits and packets -/

/-- A token plan with a circuit to the neighbour on bearing `b`, with one slot in its frame, on which core 0 sends its tile. -/
def sendTile : MacroOp := { op0 := 0, op1 := 0 }
def sendPlan (b : Nat) : Plan :=
  let v := fun c => ({ contour := c, frames := 1, cuts := [⟨0, 0, 0, 0, 1⟩], slots := [⟨0, 0, 0, 64⟩], est := [0, 0, 0, 0], predNs := 0 } : Variant)
  { tokenPlan with
    code := [{ cores := some 0 :: List.replicate 119 none, blocks := [⟨some 0 :: List.replicate 63 none, [⟨ocSend, sendTile⟩]⟩]
               tokens := [List.replicate 32 0] }]
    circuits := [{ id := 0, bearing := b, hops := 1, units := 1, srcCore := 0, dstCore := 0, mode := 0, maxBytes := 64 }]
    variants := [v 0, v 3] }

/-- Its frame runs on the module at 1 of a ring of two, whose SEND has issued. -/
def circuited (b : Nat) : State :=
  linked { running with
    topo := { gaz := some gaz2, chart := some chart2 }
    survey := { state := 2, coord := some 1 }
    job := { bind := some binding, open_ := true, tickAt := 150000, frame := 5, attempt := some { step := 3 }, running := some nextDispatch
             dispatches := [nextDispatch], slots := [(0, { plan := some { resident with plan := sendPlan b, lines := [(0, 0)] } })] }
    cores := [(0, { strands := [(0, { pc := 1, st := .ready, work := true })]
                    flights := [{ id := 6, strand := 0, kind := .send, postQ := 3, postN := 0, regions := [], op := sendTile, data := zeros 64 }] })] }

def flight : Flight := { id := 6, strand := 0, kind := .send, postQ := 3, postN := 0, regions := [], op := sendTile, data := zeros 64 }
def circuit0 (b : Nat) : Circuit := { id := 0, bearing := b, hops := 1, units := 1, srcCore := 0, dstCore := 0, mode := 0, maxBytes := 64 }
def span0 (b : Nat) : Span := { circuit := circuit0 b, entry := ⟨0, 0, 0, 64⟩, window := 0, hop := 1, ops := [⟨ocSend, sendTile⟩] }

/-- A transit slot on link 0, to leave on link 2. -/
def transiting : State := { running with
    router := { slotBuf := [⟨0, slot0, some ([2], 15000000)⟩] }
    links := [(2, { state := .up, wide := true, lanesOk := 0xF, port := 1, inService := true })] }

/-- The arrival of a slot of circuit 0, with its check word and with the tag of another job. -/
def arriving : Slot := sealSlot slot0
def strange : Slot := sealSlot { slot0 with jobTag := 8 }

def firstVariant : Variant :=
  { contour := 0, frames := 1, cuts := [⟨0, 0, 0, 0, 1⟩], slots := [⟨0, 0, 0, 64⟩], est := [0, 0, 0, 0], predNs := 0 }
def circuitResident (b : Nat) : Resident := { resident with plan := sendPlan b, lines := [(0, 0)] }

set_option maxRecDepth 100000 in
theorem meets_SlotsLeaveForwardAndLand :
    (let s := circuited 0
     s.ownSpan (0 : Byte).toNat 0 = some (circuitResident 0, span0 0, [0]) ∧ LinkFree s 0 ((span0 0).entry.payload + 96) ∧ Steady s ∧
        s.sender (s.coreFor (circuitResident 0).plan.twin (span0 0).circuit.srcCore) (span0 0).circuit.id = some flight ∧ flight.kind = .send) ∧
      (transiting.router.slotBuf = [⟨(0 : Fin 24).val, slot0, some ([2], 15000000)⟩] ∧ slot0.dstCore ≠ firmwareCore ∧
        LinkFree transiting 2 (slot0.payload.length + 96) ∧ Steady transiting) ∧
      ((circuited 1).portOfBonded (0 : Fin 24) = some 0 ∧ (circuited 1).carries (0 : Fin 24) = true ∧ slotOk strange = true ∧
        strange.jobTag ≠ (circuited 1).jobTag) ∧
      (let s := circuited 1
       (slotOk arriving = true ∧ s.job.bind.isSome = true ∧ arriving.jobTag = s.jobTag ∧ arriving.attempt = s.attemptTag ∧
          arriving.dstCore ≠ firmwareCore ∧
          s.expected (0 : Fin 24) (opposite (s.port 0).bearing.toNat) arriving.circuit.toNat 15000000 = some (span0 1, 15000000) ∧
          judgeArrival 15000000 15000000 (span0 1).len = .onTime ∧ (span0 1).hop = (span0 1).circuit.hops ∧ (span0 1).circuit.mode = 0 ∧
          s.runningPlan = some (circuitResident 1, firstVariant, 0) ∧ s.job.running = some nextDispatch ∧ (circuitResident 1).plan.twin = false ∧
          (s.core (s.coreFor false (span0 1).circuit.dstCore)).inReset = false ∧
          (span0 1).target firstVariant (circuitResident 1).plan.sentBytes = some (⟨ocSend, sendTile⟩, 0) ∧
          s.view? (s.coreFor false (span0 1).circuit.dstCore) nextDispatch.slot (circuitResident 1).plan sendTile.op0 = some row ∧
          Tab.get 0 arriving.postQ.toNat (s.core (s.coreFor false (span0 1).circuit.dstCore)).queues + arriving.postN.toNat ≤ 64) ∧
        ∀ z, s.seat (span0 1).circuit.dstCore = some z → z.r.plan.twin = false) := by
  refine ⟨⟨by decide +kernel, ⟨by decide, by decide, by decide +kernel⟩, ⟨by decide, by decide, by decide, by decide, by decide⟩, by decide +kernel⟩,
    ⟨rfl, by decide, ⟨by decide, by decide, by decide +kernel⟩, by decide, by decide, by decide, by decide, by decide⟩, by decide +kernel,
    by decide +kernel, ?_⟩
  intro z h
  have hb : ((circuited 1).seat (span0 1).circuit.dstCore).all (fun z => !z.r.plan.twin) = true := by decide +kernel
  rw [h] at hb
  simpa using hb

/-- Packets with good header checks: for this module, for its neighbour, and one with a wrong check word. -/
def plainPacket : Packet := { type := 1, vc := 0, ordered := true, jobTag := 7, coord := 1, srcRank := 1, postQ := 3 }
def forUs : Packet := sealHeader plainPacket
def forward : Packet := sealHeader { plainPacket with coord := 0 }
/-- Port 0 toward −X, on the way to the neighbour, and port 1 toward +X; port 0 holds a packet, with the free buffers given. -/
def waitingOne : Staged := { packet := forward, entering := false, adaptive := false }
def waitingLoose : Staged := { packet := sealHeader { plainPacket with coord := 0, ordered := false }, entering := false, adaptive := false }
def stagedOne (x : Staged) (esc adp : List Nat) : State :=
  let s := circuited 0
  { s with
    job := { s.job with running := none }
    ports := [(0, { state := .narrow, bearing := 1, cfgBearing := 1, links := 1, bonded := 1 }),
              (1, { state := .narrow, bearing := 0, cfgBearing := 0, links := 2, bonded := 2 })]
    router := { out := [(0, { staged := [x], esc, adp })] } }
def staged (esc : List Nat) : State := stagedOne waitingOne esc []

set_option maxRecDepth 100000 in
theorem meets_RouterRowsMovePackets :
    (let s := staged [1, 0, 0, 0]
     (s.port (0 : Fin 12)).state.bonded = true ∧ (s.out (0 : Fin 12)).staged = [waitingOne] ∧ waitingOne.entering = false ∧
        waitingOne.adaptive = false ∧ waitingOne.buffer = none ∧ waitingOne.copy = none ∧ s.adaptsAt (0 : Fin 12) waitingOne = false ∧
        s.onDetStep (0 : Fin 12) waitingOne = true ∧ 1 ≤ (s.out (0 : Fin 12)).esc.getD forward.vc.toNat 0 ∧ s.linkFor (0 : Fin 12) forward = some 0 ∧
        s.meetsSpan (s.port (0 : Fin 12)).bearing.toNat 0 forward = false) ∧
      LinkFree (staged [1, 0, 0, 0]) 0 (packetBytes forward).length ∧
      (let s := stagedOne waitingLoose [] [1, 0]
       (s.port (0 : Fin 12)).state.bonded = true ∧ (s.out (0 : Fin 12)).staged = [waitingLoose] ∧ waitingLoose.entering = false ∧
        waitingLoose.adaptive = false ∧ waitingLoose.buffer = none ∧ waitingLoose.copy = none ∧ s.adaptsAt (0 : Fin 12) waitingLoose = true ∧
        1 ≤ (s.out (0 : Fin 12)).adp.getD waitingLoose.packet.vc.toNat 0 ∧ s.linkFor (0 : Fin 12) waitingLoose.packet = some 0 ∧
        s.meetsSpan (s.port (0 : Fin 12)).bearing.toNat 0 waitingLoose.packet = false) ∧
      LinkFree (stagedOne waitingLoose [] [1, 0]) 0 (packetBytes waitingLoose.packet).length ∧
      (let s := staged [0, 0, 0, 0]
       (s.out (0 : Fin 12)).staged = [waitingOne] ∧ s.adaptsAt (0 : Fin 12) waitingOne = false ∧ s.adaptiveStep s.ownCoord waitingOne = none ∧
        s.onDetStep (0 : Fin 12) waitingOne = true ∧ (s.out (0 : Fin 12)).esc.getD forward.vc.toNat 0 = 0) ∧
      (let s := staged [0, 0, 0, 0]
       (s.port (1 : Fin 12)).state.bonded = true ∧
        packetHeaderOk forUs = true ∧ 0 < forUs.type.toNat ∧ forUs.type.toNat < 8 ∧ forUs.type ≠ 6 ∧ forUs.coord = s.ownCoord ∧
        packetHeaderOk forward = true ∧ 0 < forward.type.toNat ∧ forward.type.toNat < 8 ∧ forward.type ≠ 6 ∧ forward.coord ≠ s.ownCoord ∧
        forward.ordered = true ∧ detStep s.rings s.ownCoord (some (s.port (1 : Fin 12)).bearing.toNat) forward = some 1 ∧ s.bondedPort 1 = some 0 ∧
        packetHeaderOk plainPacket = false) ∧ Quiet (staged []) :=
  ⟨by decide +kernel, ⟨by decide, by decide, by decide +kernel⟩, by decide +kernel, ⟨by decide, by decide, by decide +kernel⟩,
    by decide +kernel, by decide +kernel, quiet _⟩

/-- Acknowledgement of 64 bytes, and a core with a PUT of 64 or more bytes to be acknowledged. -/
def landed : Packet := sealHeader { type := 7, vc := 1, jobTag := 7, coord := 1, destCore := 0, bytes := 64, msgId := 2 }
def putFlight (left : Nat) : Flight := { id := 6, strand := 0, kind := .put, postQ := 3, postN := 0, regions := [], left, msgId := 2 }
def putting (left : Nat) : State :=
  let s := circuited 0
  { s with job := { s.job with running := none }, cores := [(0, { flights := [putFlight left] })] }

set_option maxRecDepth 100000 in
theorem meets_DeliveriesLandAndAcknowledge :
    (let s := circuited 0
     packetHeaderOk forUs = true ∧ forUs.coord = s.ownCoord ∧ forUs.jobTag = s.jobTag ∧ (forUs.type = 1 ∨ forUs.type = 2 ∨ forUs.type = 3) ∧
        forUs.vc ≠ 2 ∧ forUs.attempt = s.attemptTag ∧ forUs.type = 1 ∧ s.packetView (packetViewCore forUs) forUs.destView = some row ∧
        s.inResetTile (packetViewCore forUs) row = false ∧ packetPayloadOk forUs = true ∧ forUs.poison = false ∧ forUs.postN = 0 ∧ forUs.aop = 0 ∧
        s.unserved (s.viewKeys row) = false ∧
        s.topo.gaz = some gaz2 ∧ gaz2.coord forUs.srcRank.toNat = some 1 ∧ (s.seat (packetViewCore forUs)).all (fun z => !z.r.plan.twin) = true ∧
        forUs.jobTag ≠ ready.jobTag ∧ packetHeaderOk (sealHeader { plainPacket with attempt := 9 }) = true ∧
        (sealHeader { plainPacket with attempt := 9 }).attempt ≠ s.attemptTag) ∧
      (∀ n ∈ [64, 65], landed.type = 7 ∧ packetHeaderOk landed = true ∧ landed.coord = (putting n).ownCoord ∧ landed.jobTag = (putting n).jobTag ∧
        landed.attempt = (putting n).attemptTag ∧ landed.destCore.toNat ≠ noCore ∧
        ((putting n).core ((putting n).destCore landed.destCore.toNat)).flights = [putFlight n] ∧ (putFlight n).kind = .put ∧
        (putFlight n).msgId = landed.msgId ∧ (putFlight n).data = [] ∧ (putFlight n).hub = none ∧ (putFlight n).postN = 0 ∧
        (putting n).seat landed.destCore.toNat = none) ∧
      landed.bytes.toNat < (putFlight 65).left ∧ (putFlight 64).left = landed.bytes.toNat := by
  decide +kernel

/-! ## The seal and the cartouche -/

/-- A message of the bound job for epoch 0; and the job with link 0 and the vote given. -/
def sealed : SealMsg := { jobTag := 7, chartEpoch := 1, count := 1 }
def ballot (waiting : List Nat) (units : Bool) : VoteState :=
  { abort := false, cause := 0, count := 0, integ := 0, granules := 0, step := 3, epoch := 0, waiting, unitsOpen := units, sent := false, at_ := 5 }
def voting (waiting : List Nat) (units : Bool) : State :=
  linked { laidOut with
    job := { bind := some binding, attempt := some { step := 3, window := some ⟨6, 4, false⟩ } }, sealSt := { vote := some (ballot waiting units) } }

/-- A commit of step 3 confirmed at frame 40; the attempt of the next step has been stopped, and the step's dispatch waits. -/
def committed (skipped : Bool) (epoch : Nat := 0) (level : Nat := 3) : Commit :=
  { step := 3, epoch, frame := 10, seed := 0, programs := [], level, profile := 0, fields := (0, 0, 0, 0), tags := [9], skipped }
def doneDispatch : Dispatch := { slot := 0, first := 5, step := 3, phaseSeq := 0, tag := 9, done := true }
def missing : State :=
  { voting [] false with
    job := { bind := some binding, attempt := some { step := 4, abortFo := some 12 }, dispatches := [doneDispatch] }
    sealSt := { confirming := [(40, committed false)], commits := [committed false, committed false 9] } }

theorem meets_VotesDecideAndMissedCommitsRollBack :
    ((voting [0, 1] false).sealSt.vote = some (ballot [0, 1] false) ∧ (voting [0, 1] false).portOfBonded (0 : Fin 24) = some 0 ∧
        (voting [0, 1] false).ours sealed (ballot [0, 1] false).epoch = true ∧ (∃ r, r ≠ 0 ∧ r ∈ (ballot [0, 1] false).waiting) ∧
        0 ∈ (ballot [0, 1] false).waiting) ∧
      ((ballot [0] false).waiting = [0] ∧ (ballot [0] false).sent = false ∧ (ballot [0] false).unitsOpen = false ∧
        (voting [0] false).isRoot = true ∧ (voting [0] false).ours sealed 0 = true ∧ (voting [0] false).windowOpenAt = true ∧
        ({ voting [0] false with clock := { meridian := 10000000 } }).windowOpenAt = false) ∧
      (ballot [1] false).waiting.contains 0 = false ∧
      ((voting [0] true).sealSt.vote = some (ballot [0] true) ∧ (ballot [0] true).unitsOpen = true ∧ (ballot [0] true).waiting ≠ [] ∧
        (voting [0] true).mer.trim = 0 ∧ (voting [0] true).mer.learned = 0 ∧ (voting [0] true).mer.slew = none ∧ (voting [0] true).clock.phase = 0) ∧
      ((voting [0] false).sealSt.decision = none ∧ (voting [0] false).topo.reshape = none ∧ (voting [0] false).windowOpenAt = true ∧
        (voting [0] false).ours { sealed with epoch := 4 } 0 = false) ∧
      (missing.missedCommit sealed = some (committed false) ∧ missing.job.attempt = some { step := 4, abortFo := some 12 } ∧
        (missing.sealSt.commits.filter fun c => c.epoch ≠ missing.lastEpoch) = [committed false 9] ∧
        (missing.sealSt.commits.any fun c => c.epoch = missing.lastEpoch && c.step = (committed false).step) = true) :=
  ⟨⟨rfl, by decide +kernel, by decide +kernel, ⟨1, by decide⟩, by decide⟩, by decide +kernel, by decide +kernel, by decide +kernel,
    by decide +kernel, by decide +kernel⟩

/-- At the confirmation tick of that commit, and with copies going out and coming in. -/
def confirming (skipped : Bool) : State :=
  sent 1 0x0105 { circuited 0 with
    topo := { gaz := some gaz2, chart := some chart2, fresh := false }
    job := { bind := some binding, frame := 40, dispatches := [doneDispatch] }, sealSt := { confirming := [(40, committed skipped)] } }
def copying_ (v : Seal) : State := { circuited 0 with sealSt := v }
def buddied : SealMsg := { sealed with epoch := 0 }

/-- A copy of the last commit, of one granule, is coming in; BUDDY_RESEND has been logged for it, or not. -/
def incoming (resendFor : Option Nat) : State :=
  { staged [] with sealSt := { copyIn := some (0, [dirKey 5 0 0 1 0]), copyInTotal := 1, resendFor } }

/-- A granule of tensor 5 has its buddy copy poisoned. -/
def poisonedBuddy : State :=
  let s := copying_ { buddyEpoch := 2, asked := [5] }
  { s with poison := [(s.physKey (s.currentKey (buddyKey 5)) / 64, true)] }

theorem meets_CommitsAreConfirmedCopiedAndReleased :
    (∀ b, (confirming b).sealSt.confirming = [(40, committed b)] ∧ ((40 : Nat) : Int) ≤ (confirming b).job.frame ∧
        (confirming b).job.dispatches = [doneDispatch] ∧ doneDispatch.done = true ∧ doneDispatch.step = (committed b).step ∧
        doneDispatch.tag = (cmd).tag ∧ ((confirming b).mbox 1).inFlight = [⟨9, 0x0105, 0, 1000000000, false⟩] ∧
        ((confirming b).mbox 1).dropped = [] ∧ (confirming b).cofin.up = true ∧ ((confirming b).mbox 1).noRoom = false ∧
        (committed b).skipped = b ∧ (confirming b).buddy.isSome = true ∧ (confirming b).sealSt.copyOut = none ∧
        (confirming b).topo.fresh = false) ∧
      (let s := incoming none
       s.sealSt.copyIn = some ((0 : Word).toNat, [dirKey 5 0 0 1 0]) ∧ (0 : Word).toNat = s.lastEpoch ∧ [dirKey 5 0 0 1 0].Nodup ∧
        [dirKey 5 0 0 1 0].length = s.sealSt.copyInTotal ∧ s.buddyPort.isSome = true ∧ s.buddyCoord.isSome = true ∧
        s.sealSt.resendFor ≠ some (0 : Word).toNat) ∧
      Quiet (incoming none) ∧ (incoming (some 0)).sealSt.resendFor = some (0 : Word).toNat ∧
      (let s := copying_ { copyOut := some (3, [5]) }
       s.sealSt.copyOut = some (3, [5]) ∧ s.ours { buddied with epoch := 3 } 3 = true ∧ 3 ≠ s.lastEpoch ∧ s.sealSt.ownDone = false) ∧
      (let s := copying_ { copyOut := some (0, [5]), doneWaiting := [0] }
       s.sealSt.copyOut = some (0, [5]) ∧ s.ours buddied 0 = true ∧ s.sealSt.doneWaiting ≠ [] ∧ 0 = s.lastEpoch) ∧
      (let s := copying_ { doneWaiting := [0] }
       s.portOfBonded (0 : Fin 24) = some 0 ∧ s.ours buddied s.lastEpoch = true ∧ 0 ∈ s.sealSt.doneWaiting ∧ s.sealSt.ownDone = false) ∧
      (let s := { circuited 0 with hubs := (List.range 8).map fun h => (h, { commit := 4 }) }
       s.ours { buddied with epoch := 4 } s.lastEpoch = true ∧ s.released = false ∧ (s.hub 0).rollback = false ∧ s.cartoucheBound = false ∧
        s.sec.waiting = []) ∧
      (let s := copying_ { buddyEpoch := 2, asked := [5] }
       s.job.bind.isSome = true ∧ dirKey 5 0 0 1 0 = buddyKey (dirKey 5 0 0 1 0) ∧ 5 ≠ buddyKey 5 ∧ (2 : Word).toNat ≤ s.sealSt.buddyEpoch ∧
        s.runPoisoned (s.currentKey (buddyKey 5)) 4096 = false ∧ s.sealSt.buddyEpoch < (3 : Word).toNat ∧ 5 ∈ s.sealSt.asked) ∧
      (poisonedBuddy.job.bind.isSome = true ∧ poisonedBuddy.runPoisoned (poisonedBuddy.currentKey (buddyKey 5)) 4096 = true) ∧
      (zeros 4096).length = 4096 := by
  refine ⟨fun b => ?_, by decide +kernel, quiet _, rfl, by decide +kernel, by decide +kernel, by decide +kernel, by decide +kernel,
    by decide +kernel, by decide +kernel, List.length_replicate⟩
  cases b <;> decide +kernel

/-- A binding that keeps digests, or none, with the commit given. -/
def keeping (k : Commit) (released : Nat) : State :=
  sent 4 0x0405 { ready with
    job := { bind := some { binding with cartouche := true } }
    hubs := (List.range 8).map fun h => (h, { commit := 4, released }), sealSt := { commits := [k] } }

set_option maxRecDepth 100000 in
theorem meets_CartoucheFetchAnswersTheLastCommit :
    (Fetched 4 0x0405 (cmd) (sent 4 0x0405 running) ∧ (sent 4 0x0405 running).cartoucheAllowed = false) ∧
      (∀ k released, Fetched 4 0x0405 (cmd 4096) (keeping k released) ∧ (keeping k released).cartoucheAllowed = true ∧
        (keeping k released).sealSt.commits = [k]) ∧
      ((committed false).skipped = false ∧ (committed false).step = (3 : Word) ∧ (committed false).step ≠ (4 : Word) ∧
        (committed false).level = 3 ∧ (committed false 0 2).level ≠ 3) ∧
      (keeping (committed false) 3).released = false ∧ (keeping (committed false) 4).released = true ∧
      ((keeping (committed false) 4).cartouche (committed false) false (zeros 32)).length + 64 ≤ (cmd 4096).length.toNat := by
  refine ⟨⟨fetched .., by decide +kernel⟩, fun k r => ⟨fetched .., rfl, rfl⟩, by decide, by decide +kernel, by decide +kernel, by decide +kernel⟩

/-! ## The Ethernet gateway -/

def gated (v : Gateway) : State := { ready with gws := [(1, v)] }

set_option maxRecDepth 100000 in
theorem meets_GatewayPortsTunnelsAndQueuePairs :
    ((ready.gw (1 : Fin 2)).state ≠ 2 ∧ Quiet ready ∧ gatewayUp.hbmCalm = true) ∧
      ((gated { state := 1 }).gwEnabled = true ∧ ((gated { state := 1 }).gw (1 : Fin 2)).state = 1 ∧
        ((gated { state := 1 }).gw (1 : Fin 2)).lowPower = false) ∧
      (gatewayUp.gwState (1 : Fin 2) = 2 ∧ (gatewayUp.gw (1 : Fin 2)).state = 2 ∧ Quiet gatewayUp) ∧
      ((gatewayUp.gw (1 : Fin 2)).tunnels = [tunnel3] ∧ tunnel3.index = (3 : BitVec 16).toNat ∧ tunnel3.failed = false ∧ tunnel3.waiting = [] ∧
        packetHeaderOk (sealHeader { plainPacket with coord := 0 }) = true ∧ (sealHeader { plainPacket with coord := 0 }).type ≠ 6 ∧
        (sealHeader { plainPacket with coord := 0 }).coord = gatewayUp.ownCoord ∧ (9 : Word) ≠ tunnel3.rxNext) ∧
      (let t := fun n => { tunnel3 with unacked := [(0, plainPacket)], stuck := n }
       (∀ n ∈ [7, 8], ((gated { state := 2, tunnels := [t n] }).gw (1 : Fin 2)).tunnels = [t n] ∧ (t n).unacked ≠ []) ∧ (t 7).stuck < 8 ∧
        8 ≤ (t 8).stuck ∧ (gated { state := 2, tunnels := [t 8] }).router.transfers = []) ∧
      ((gatewayUp.gw (1 : Fin 2)).qps = [qp7] ∧ qp7.ready = true ∧ (5 : Word) ≠ qp7.recvPsn ∧ (zeros 4096).length ≤ qp7.mtu ∧
        RoceOp.sendMsg [] ≠ .cnp) ∧
      (let s := { gatewayUp with job := arenaed.job }
       s.hbmCalm = true ∧ roceSpace spreadAddr = true ∧ spreadAddr.space.toNat ≠ spSheet ∧ s.xferPlace spreadAddr 4 false false = .ok (.area .spread 65532) ∧
        s.xferPlace spreadAddr 4 true false = .ok (.area .spread 65532) ∧ s.xferPoison (.area .spread 65532) 4 = none) := by
  exact ⟨⟨by decide, quiet _, by decide +kernel⟩, by decide, ⟨by decide +kernel, rfl, quiet _⟩, by decide +kernel, by decide +kernel, by decide +kernel,
    by decide +kernel, by decide, by decide, rfl, rfl, by decide +kernel⟩

end Sys2Proof.Tests
end

