-- ==== Sys2Proof/WellFormed.lean ====
section
/-! DEFINITION. Which commands are well formed: an operand stays within the range of the field, the buffer or the unit that carries it.
`exec` gives every command a meaning, well formed or not; a command that is not well formed is none that the hardware's interfaces can
carry. -/
namespace Sys2Proof

/-- An access of the host window: a size that the link carries, within the window's 64 KiB, and a value of that size (R384, R386). -/
def windowAccess (offset size : Nat) (value : BitVec 64) : Bool :=
  [1, 2, 4, 8].contains size && decide (offset + size ≤ 65536) && decide (value.toNat < 256 ^ size)

/-- The input buffer that the descriptor names, read whole (R394). -/
def bufferOf (c : Cmd) (data : Bytes) : Bool :=
  decide (data.length = c.length.toNat)

/-- A packet's payload is what PAYLOAD_BYTES says, at most 4,096 bytes; a landing acknowledgement carries none (R245, R246). -/
def Packet.wf (p : Packet) : Bool :=
  decide (p.bytes.toNat ≤ 4096) && decide (p.payload.length = if p.type = 7 then 0 else p.bytes.toNat)

/-- BYTES of the trailer holds the payload's length (R241). -/
def Slot.wf (x : Slot) : Bool :=
  decide (x.payload.length < 2 ^ 32)

/-- Rows and blocks of a hub channel (R190, R196). -/
def channelRow (row : Nat) : Bool :=
  decide (row < 524288)

def channelBlock (block : Nat) : Bool :=
  decide (block < 64 * 524288)

/-- An error ratio in units of 10^−12 (R219). -/
def errorRatio (n : Nat) : Bool :=
  decide (n ≤ 10 ^ 12)

/-- A group has a codeword for each lane of a link of two or four lanes, each of 544 symbols (R215, R217). -/
def Group.wf (g : Group) : Bool :=
  [2, 4].contains g.lanes.length && g.lanes.all fun c => decide (c.wrong ≤ 544)

/-- The record of a RoCEv2 message names no more bytes than a message can have. -/
def RoceOp.wf : RoceOp → Bool
  | .sendMsg data => decide (data.length < 2 ^ 32)
  | .write _ data => decide (data.length < 2 ^ 32)
  | .read _ length => decide (length < 2 ^ 32)
  | .cnp => true

/-- The command is one that the interface it comes by can carry. -/
def Instr.wf : Instr → Bool
  | .registerWrite offset size value => windowAccess offset size value
  | .fwLoad c image => bufferOf c image
  | .configLoad c record => bufferOf c record
  | .planLoad c _ buffer => bufferOf c buffer
  | .write c _ data _ => bufferOf c data
  | .portConfig c data => bufferOf c data
  | .gazetteerLoad c data => bufferOf c data
  | .chartLoad c data => bufferOf c data
  | .insetStage c _ _ data => bufferOf c data
  | .reshape c _ _ data => bufferOf c data
  | .licenceInstall c data => bufferOf c data
  | .scoreboardRun c _ buffer => bufferOf c buffer
  | .attest _ nonce => decide (nonce.length = 32)
  | .mainDomainPowered _ failed => decide failed.Nodup
  | .hbmTrainingDone failed => decide failed.Nodup
  | .telemetryRefresh _ m => decide (m.corrected.map (·.1)).Nodup && decide (m.oeTemp.map (·.1)).Nodup && decide (m.fec.map (·.1)).Nodup
  | .scrub _ _ row found => channelRow row && decide (found.map (·.1)).Nodup
  | .hbmRepairDone _ lost => lost.all channelBlock && decide lost.Nodup
  | .laneBerWindow _ a b c d => errorRatio a && errorRatio b && errorRatio c && errorRatio d
  | .slotArrival _ _ x => x.wf
  | .packetArrival _ p => p.packet.wf && (!p.adaptive || decide (p.packet.vc.toNat < 2))
  | .groupReceived _ g => g.wf
  | .packetDelivery p _ _ => p.wf
  | .landingAck p => p.wf && decide (p.type = 7)
  | .sheetRestored _ data => data.all fun d => decide (d.length = 4096)
  | .tunnelPacket _ _ _ _ _ inner => inner.all Packet.wf
  | .rocePacket _ _ _ op => op.op.wf
  | .i3cBlockWrite offset data => decide (offset + data.length ≤ 256)
  | .icmpEchoRequest _ payload => decide (payload.length < 65536)
  | .powerApplied | .standbyRegulation _ | .inputLoss | .inputOvervoltage | .overvoltageRecovery | .alertFloor _
  | .floorHoldEnd | .powerOverCap _ | .modReset _ | .controlMismatch | .controlWatchdog | .thermalTrip _
  | .dieTemperatureReading _ _ | .coolantOutlet _ | .stackTemperatureReading _ _ | .linkTrainingEnd | .startStepSlow
  | .cofinTrainingTimer | .cofinUp _ | .cofinDown | .doorbell _ _ | .cmpHeadWrite _ _ | .mailboxEnable _ _ | .mailboxReset _
  | .eventPendingClear _ | .commandFetch _ _ _ | .completionIrqDelay _ | .commandTimeout _ _ | .dumpUnitUnreachable _
  | .dumpDone | .dumpHoldTimeout | .dumpingResetHoldExpiry | .coreResetTimeout _ | .eventsCoalesced | .status _ | .reset _ _
  | .logFetch _ _ | .logClear _ | .dumpFetch _ _ | .dumpDiscard _ | .faultPolicy _ _ _ _ _ | .meridianSet _ _
  | .meridianSlew _ _ _ | .standby _ | .wake _ | .cancel _ _ | .jobBind _ _ | .jobUnbind _ | .bindingEnd | .planEvict _
  | .planDispatch _ _ _ _ | .memoryLayout _ _ | .arenaSet _ _ _ _ | .tensorRegister _ _ | .tensorUnregister _ _ | .gwPort _ _
  | .gwTunnelAdd _ _ | .gwTunnelRemove _ _ | .gwQpCreate _ _ | .gwQpReady _ _ | .gwQpDestroy _ _ | .quiesce _ _ | .survey _
  | .legendFetch _ | .licenceList _ | .identityCert _ | .cartoucheFetch _ _ _ | .powerConfig _ _ _ _ _ | .telemetrySnapshot _
  | .dump _ | .dumpRegion _ _ | .fieldTest _ _ | .coreInspect _ _ | .mgmtLogRequest _ _ | .mgmtIdentRequest | .mgmtApply
  | .i3cSetdasa _ | .i3cEntdaa _ | .pmbusPage _ | .voutMode | .statusWord | .readVin _ | .readVout _ | .readIout _
  | .readTemperature1 _ | .readPout _ | .pmbusRevision | .pmbusWriteRefused _ | .bypass | .idcode | .samplePreload _ _
  | .extest | .jtagTestLogicReset | .tick _ | .fieldTestStart _ | .fieldTestDue _ | .fieldTestLate _ | .fieldTestDone _ _
  | .deadline | .frameBoundaryMessage _ _ | .frameAbort _ _ _ _ | .meridianExchange _ | .meridianExchangeReceived _ _ _ _ _
  | .meridianHoldover | .meridianUnlock | .meridianStep | .nop _ _ | .wait _ _ | .post _ _ | .fence _ _ | .frameEnd _ _
  | .load _ _ | .store _ _ | .gather _ _ | .scatter _ _ | .fill _ _ | .mma _ _ | .mmas _ _ | .vprog _ _ | .vred _ _ | .seed _ _
  | .send _ _ | .recv _ _ | .put _ _ | .get _ _ | .cred _ _ | .turn _ _ | .upda _ _ | .updb _ _ | .upds _ _
  | .macroOpCompletion _ _ _ | .icacheRefillDone _ _ _ | .retrainDue _ _ _ | .retrainDone _ _ _ | .hbmRetrainOverdue _ _
  | .sweepDone _ | .linkDark _ | .widthAgreement _ _ _ | .linkRetryTimer _ | .laneLightLoss _ _ | .linkRetrainDone _ _
  | .linkRetryExhausted _ | .slotTransmit _ _ | .slotForward _ _ | .packetSend _ | .creditFlit _ _ _
  | .peerLost _ _ _ | .vote _ _ | .unitReportTimeout | .decision _ | .sealMissed _ | .confirmationTick | .buddyCopyDone _ _
  | .buddyAck _ | .buddyDone _ _ | .release _ | .sheetRestoreRequest _ _ | .reshapeProposal _ _ | .reshapeWindowEnd
  | .insetRetryStart | .migrationWindowEnd | .surveyRound | .legendFragment _ _ | .surveySettled | .surveyTimeout
  | .gatewayModule _ _ | .gatewayLinkDown _ | .tunnelResend _ _ | .gatewayLinkUp _ | .alertCauseEnds _ | .meridianSlewEnd
  | .planTranslationDone _ | .resetComplete | .neighbourDiscovery _ _ | .dhcpReply _
  | .read _ _ _ _
    => true

end Sys2Proof
end

