-- ==== Sys2Proof/Tests/Slice0.lean ====
section
/-! SUPPORT. Tests: commands that `Instr.wf` refuses, one for each of its checks; the table gives no words; values that the spec's tables
give; and single steps on small states. -/
namespace Sys2Proof.Tests

set_option Elab.async false

open Sys2Proof.Machine

/-! ## Well-formedness -/

/-- A register write of 3 bytes; one across the end of the window; a value wider than its size (R384, R386). -/
theorem test_ill_register_write :
    (Instr.registerWrite 0 3 0).wf = false ∧ (Instr.registerWrite 65534 4 0).wf = false ∧ (Instr.registerWrite 0 1 256).wf = false ∧
      (Instr.registerWrite 0xFFF8 8 0xFFFFFFFFFFFFFFFF).wf = true := by decide

/-- A buffer shorter than LENGTH, of every command that reads one (R394). -/
theorem test_ill_buffers :
    [Instr.fwLoad (cmd 4) [], .configLoad (cmd 4) [], .planLoad (cmd 4) 4 [], .write (cmd 4) spreadAddr [] .none, .portConfig (cmd 4) [],
      .gazetteerLoad (cmd 4) [], .chartLoad (cmd 4) [], .insetStage (cmd 4) 8 0 [], .reshape (cmd 4) 0 8 [], .licenceInstall (cmd 4) [],
      .scoreboardRun (cmd 4) 4 []].all (fun i => !i.wf) = true ∧ (Instr.chartLoad (cmd 4) [1, 2, 3, 4]).wf = true := by decide

/-- A nonce of 31 bytes (R407). -/
theorem test_ill_nonce : (Instr.attest (cmd) (zeros 31)).wf = false ∧ (Instr.attest (cmd) (zeros 32)).wf = true := by decide

/-- A core, a channel, a link or a block named twice. -/
theorem test_ill_repeats :
    [Instr.mainDomainPowered true [3, 3], .hbmTrainingDone [(2, 5), (2, 5)], .telemetryRefresh .link { corrected := [(1, 0), (1, 4)] },
      .telemetryRefresh .link { oeTemp := [(1, 0), (1, 4)] }, .telemetryRefresh .gateway { fec := [(1, 0), (1, 4)] }, .scrub 0 0 0 [(1, .corrected), (1, .uncorrectable)], .hbmRepairDone 0 [8, 8]].all
        (fun i => !i.wf) = true := by decide

/-- A row and a block that a channel does not have (R190, R196). -/
theorem test_ill_channel :
    (Instr.scrub 0 0 524288 []).wf = false ∧ (Instr.hbmRepairDone 0 [64 * 524288]).wf = false ∧
      (Instr.scrub 7 92 524287 []).wf = true := by decide

/-- More errors than bits. -/
theorem test_ill_error_ratio :
    (Instr.laneBerWindow 0 0 (10 ^ 12 + 1) 0 0).wf = false ∧ (Instr.laneBerWindow 0 0 0 0 (10 ^ 12)).wf = true := by decide

/-- A packet of more than 4,096 bytes, one of virtual channel 2 in an adaptive buffer (R252), and payloads that PAYLOAD_BYTES does not give (R245, R246). -/
theorem test_ill_packets :
    (Instr.packetArrival 0 ⟨{ plainPacket with bytes := 4097 }, false⟩).wf = false ∧
      (Instr.packetArrival 0 ⟨{ plainPacket with vc := 2 }, true⟩).wf = false ∧ (Instr.packetArrival 0 ⟨{ plainPacket with vc := 2 }, false⟩).wf = true ∧
      (Instr.packetDelivery { plainPacket with bytes := 4 } 0 .none).wf = false ∧
      (Instr.landingAck forUs).wf = false ∧ (Instr.landingAck { landed with payload := [1] }).wf = false ∧ (Instr.landingAck landed).wf = true ∧
      (Instr.tunnelPacket 0 3 7 0 0 (some { plainPacket with bytes := 4 })).wf = false := by decide +kernel

/-- A granule of 4,095 bytes (R328), and an I3C write past its 256 bytes (R440). -/
theorem test_ill_granule_and_block_write :
    (Instr.sheetRestored 0 (some (zeros 4095))).wf = false ∧ (Instr.sheetRestored 0 none).wf = true ∧
      (Instr.i3cBlockWrite 250 (zeros 7)).wf = false ∧ (Instr.i3cBlockWrite 250 (zeros 6)).wf = true := by decide +kernel

/-- A RoCE read of 4 GiB. -/
theorem test_ill_roce : (Instr.rocePacket 0 7 0 ⟨.read spreadAddr (2 ^ 32), false⟩).wf = false ∧ (Instr.rocePacket 0 7 0 ⟨.read spreadAddr 4, false⟩).wf = true := by
  decide +kernel

/-- A group of three lanes, and more wrong symbols than a codeword has (R215, R217). -/
theorem test_ill_groups :
    (Instr.groupReceived 0 ⟨List.replicate 3 (word 0 0)⟩).wf = false ∧ (Instr.groupReceived 0 ⟨List.replicate 2 (word 0 545)⟩).wf = false ∧
      (Instr.groupReceived 0 ⟨List.replicate 2 { word 0 544 with data := zeros 640 }⟩).wf = true := by decide +kernel

/-- Payloads longer than their length fields hold (R233, R241, R436). -/
theorem test_ill_lengths (x : Slot) (n : Fin 24) (g : Fin 2) (d : Bytes) (h : d.length = 2 ^ 32) :
    (Instr.slotArrival n 0 { x with payload := d }).wf = false ∧ (Instr.rocePacket g 7 0 ⟨.sendMsg d, false⟩).wf = false ∧
      (Instr.rocePacket g 7 0 ⟨.write spreadAddr d, false⟩).wf = false ∧ (Instr.icmpEchoRequest .management d).wf = false := by
  simp [Instr.wf, Slot.wf, RoceOp.wf, h]

/-! ## Decoding -/

/-- The table gives no row any bits: no word spells a command, and none is put in front of the queue. -/
theorem test_no_words : decodeTableWord 32 0 = none ∧ decodeTableWord 0 0 = none ∧ State.reset.withFetchWord 32 0xFFFFFFFF = State.reset := ⟨rfl, rfl, rfl⟩

/-! ## Formats and check words -/

/-- The largest finite values of R106: 65,504 in FP16, 448 in E4M3, 6 in E2M1. -/
theorem test_largest_finite :
    decodeElem 2 0x7BFF = .fin false 2047 5 ∧ decodeElem 3 0x7E = .fin false 14 5 ∧ decodeElem 7 7 = .fin false 3 1 := by decide

/-- The bytes 0C 83 8C 03 00 00 00 00 are FMA r3 ← r4 × r3 + r7, as the worked example of R175 has them. -/
theorem test_update_instruction :
    parseUInstr [0x0C, 0x83, 0x8C, 0x03, 0, 0, 0, 0] = { uop := 0x0C, dst := 3, a := 4, b := 3, c := 7, imm := 0 } := by decide

/-- The bytes 04 06 00 00 07 00 00 00 are LDK r6, 7, as the same example has them. -/
theorem test_update_constant :
    parseUInstr [0x04, 0x06, 0, 0, 0x07, 0, 0, 0] = { uop := 0x04, dst := 6, a := 0, b := 0, c := 0, imm := 7 } := by decide

/-- Round half to even: 1 + 2^−24 gives 1, 1 + 3 · 2^−24 gives 1 + 2^−22 (R113). -/
theorem test_ties_to_even :
    rne32 (.fin false (2 ^ 24 + 1) (-24)) = 0x3F800000 ∧ rne32 (.fin false (2 ^ 24 + 3) (-24)) = 0x3F800002 := by decide +kernel

/-- A sum keeps −0 only where both terms are −0. -/
theorem test_signed_zero : fAdd 0x80000000 0x80000000 = 0x80000000 ∧ fAdd 0 0x80000000 = 0 := by decide +kernel

/-! ## Single steps -/

/-- One step with the command in front. -/
def after (i : Instr) (s : State) : State :=
  match step { s with pending := [i] } with
  | .next t => t
  | _ => s

/-- The status of the last completion. -/
def statusOf (t : State) : Option Nat :=
  t.emitted.findSome? fun e => match e with
    | .completion _ _ _ x _ => some x.toNat
    | _ => none

/-- A command on mailbox `m`, in a state. -/
def answers (m op : Nat) (s : State) (i : Instr) : Option Nat := statusOf (after i (sent m op s))

/-- Standby power comes with 48 V; a good regulation leads to HELD, a module without it is off (R414). -/
theorem test_power :
    (after (.standbyRegulation true) (supply true)).dev.state = .held ∧ (after .inputLoss ready).dev.state = .off := by decide +kernel

/-- MOD_RESET_N low for less than its filter time is ignored; for longer it resets (R435). -/
theorem test_mod_reset :
    (after (.modReset 99) ready).dev.state = .ready ∧ (after (.modReset 100000) ready).dev.state = .held := by decide +kernel

/-- An alert floor is taken at once (R346). -/
theorem test_alert_floor : (after (.alertFloor .power) ready).power.floor = true := by decide +kernel

/-- On an empty queue the clock counts one nanosecond (log entry 1). -/
theorem test_idle_step : (match step ready with | .next t => t.clock.uptime | _ => 9) = 1 := by decide +kernel

/-- A doorbell sets the command ring's tail (R392). -/
theorem test_doorbell :
    ((after (.doorbell 0 3) { ready with mboxes := [(0, { enable := true, cmdLog2 := 4, cmpLog2 := 4 })] }).mbox 0).cmdTail = 3 := by decide +kernel

/-- Bit c of the mask clears the pending bit of class c, and no other (R388). -/
theorem test_pending_clear :
    (after (.eventPendingClear 2) { ready with regs := { eventPending := 5 } }).regs.eventPending = 4 := by decide +kernel

/-- STATUS with a buffer too short answers 0x0303. -/
theorem test_status : answers 0 1 ready (.status (cmd 64)) = some 0x0303 := by decide +kernel

/-- MERIDIAN_SET outside HELD and INITIALISING answers 0x0201 (R28). -/
theorem test_meridian_set : answers 0 0x000A ready (.meridianSet (cmd) 5) = some 0x0201 := by decide +kernel

/-- JOB_BIND binds in READY; a second answers 0x0211; TICK_PERIOD 1,999 answers 0x011C (R39). -/
theorem test_job_bind : answers 1 0x0101 ready (.jobBind (cmd) (bindParams 10000)) = some 0 ∧
    answers 1 0x0101 running (.jobBind (cmd) (bindParams 10000)) = some 0x0211 ∧
      answers 1 0x0101 ready (.jobBind (cmd) (bindParams 1999)) = some 0x011C := by decide +kernel

/-- JOB_UNBIND with no job answers 0x0201 (R403). -/
theorem test_job_unbind : answers 1 0x0102 ready (.jobUnbind (cmd)) = some 0x0201 := by decide +kernel

/-- PLAN_LOAD with no job answers 0x0207; a file shorter than 64 bytes, 0x0101. -/
theorem test_plan_load :
    answers 1 0x0103 ready (.planLoad (cmd) 0 []) = some 0x0207 ∧ answers 1 0x0103 running (.planLoad (cmd) 0 []) = some 0x0101 := by decide +kernel

/-- PLAN_EVICT empties the slot. -/
theorem test_plan_evict :
    ((after (.planEvict (cmd)) (sent 1 0x0104 loaded)).resident 0).isNone = true ∧ (loaded.resident 0).isSome = true := by decide +kernel

/-- MEMORY_LAYOUT takes multiples of 4,096 rows (R190). -/
theorem test_memory_layout :
    (after (.memoryLayout (cmd) 4096) (sent 2 0x0201 ready)).rowSplit = 4096 ∧
      answers 2 0x0201 ready (.memoryLayout (cmd) 4097) = some 0x011C := by decide +kernel

/-- WRITE to a hub cache lands there, low byte first. -/
theorem test_write :
    (after (.write (cmd 4) hubcAddr [1, 2, 3, 4] .none) (sent 2 0x0205 arenaed)).byteAt (hubcKey 7 0x1FFFFFD) = 2 := by decide +kernel

/-- READ past the end of a hub cache answers 0x0304. -/
theorem test_read : answers 2 0x0206 arenaed (.read (cmd 5) hubcAddr false .none) = some 0x0304 := by decide +kernel

/-- SURVEY with a job bound answers 0x0209 (R295). -/
theorem test_survey : answers 3 0x0303 running (.survey (cmd)) = some 0x0209 := by decide +kernel

/-- LICENCE_LIST of a module without licences completes with 0. -/
theorem test_licence_list : answers 4 0x0402 ready (.licenceList (cmd 4096)) = some 0 := by decide +kernel

/-- A test of a core in READY runs at once (R364). -/
theorem test_field_test : ((after (.fieldTest (cmd) 0) (sent 6 0x0604 ready)).core 0).test.state = .running := by decide +kernel

/-- RESHAPE without the Elastic Meshing licence answers 0x0502 (R300). -/
theorem test_reshape : answers 3 0x0308 running (.reshape (cmd) 0 8 []) = some 0x0502 := by decide +kernel

/-- A TICK advances the frame index and opens the frame (R40). -/
theorem test_tick : (after (.tick {}) (ticking [])).job.frame = 5 ∧ (after (.tick {}) (ticking [])).job.open_ = true := by decide +kernel

/-- The deadline of a frame with unfinished work overruns it (R49). -/
theorem test_deadline : (after .deadline overrunning).job.overruns = 1 ∧ (after .deadline overrunning).job.open_ = false := by decide +kernel

/-- A POST adds no token in scoreboard mode, and the strand moves on (R70). -/
theorem test_post : ((after (.post issue0 { postQ := 2, postN := 3 }) (bench ⟨2, { postQ := 2, postN := 3 }⟩)).core 0).queues = [] ∧
    ((after (.post issue0 { postQ := 2, postN := 3 }) (bench ⟨2, { postQ := 2, postN := 3 }⟩)).strand 0 0).pc = 1 := by decide +kernel

/-- A FENCE waits for its strand's macro-ops (R61). -/
theorem test_fence : ((after (.fence issue0 {}) (bench ⟨3, {}⟩)).strand 0 0).st = .ready := by decide +kernel

/-- FILL writes its operand's low word as an FP32 value to every element (R139). -/
theorem test_fill :
    ((after (.fill issue0 { op0 := 0, op1 := 0x3F800000 }) (bench ⟨ocFill, { op0 := 0, op1 := 0x3F800000 }⟩)).codes row).getD 0 [] = List.replicate 16 0x3F800000 := by decide +kernel

/-- A LOAD holds an entry of its unit until it completes (R56). -/
theorem test_load : ((after (.load issue0 three) (bench ⟨ocLoad, three⟩)).core 0).flights.length = 1 := by decide +kernel

/-- The completion of a macro-op frees its entry and the hub's slot (R57). -/
theorem test_completion :
    ((after (.macroOpCompletion 0 6 .none) flying).core 0).flights = [] ∧ ((after (.macroOpCompletion 0 6 .none) flying).hub 0).slots = 0 := by decide +kernel

/-- A refill brings its line (R81). -/
theorem test_refill : ((after (.icacheRefillDone 0 4 .none) flying).core 0).lines = [4, 0] := by decide +kernel

/-- An uncorrectable block of a scrub is poisoned (R197). -/
theorem test_scrub : (after (.scrub 0 3 5 [(2, .uncorrectable)]) ready).poisonedAt (hbmKey 0 3 5 128) = true := by decide +kernel

/-- The first training that fails is tried again (R201). -/
theorem test_retrain : ((after (.retrainDone 0 3 false) (hubbed { retraining := some 3 })).hub 0).retries = 1 := by decide +kernel

/-- A link whose four lanes train comes up wide (R223). -/
theorem test_width_agreement :
    ((after (.widthAgreement 0 (BitVec.ofNat 128 (4 + 15 * 256)) 15) (overLink { state := .training })).link 0).wide = true := by decide +kernel

/-- A group in sequence is taken; one of which a lane does not decode sets NAK (R216, R219). -/
theorem test_group : ((after (.groupReceived 0 ⟨words (linkField 1 0 false 0)⟩) (overLink good)).link 0).rxSeq = 1 ∧
    ((after (.groupReceived 0 ⟨oneBad (linkField 2 0 false 0)⟩) (overLink good)).link 0).nak = true := by decide +kernel

set_option maxRecDepth 100000 in
/-- A slot of another job is stale (R247). -/
theorem test_stale_slot : (after (.slotArrival 0 15000000 strange) (circuited 1)).router.stale = 1 := by decide +kernel

set_option maxRecDepth 100000 in
/-- A packet without credit stays (R253). -/
theorem test_no_credit : ((after (.packetSend 0) (staged [0, 0, 0, 0])).out 0).creditStalls = 1 := by decide +kernel

/-- Credit counts are two bits each, VC0 lowest (R253). -/
theorem test_credit_flit :
    ((after (.creditFlit 0 0xE4 0x9) (staged [])).out 0).esc = [0, 1, 2, 3] ∧
      ((after (.creditFlit 0 0xE4 0x9) (staged [])).out 0).adp = [1, 2] := by decide +kernel

set_option maxRecDepth 100000 in
/-- An acknowledgement of part of a PUT leaves the rest (R246). -/
theorem test_landing_ack : ((after (.landingAck landed) (putting 65)).core 0).flights.map (fun f => f.left) = [1] := by decide +kernel

/-- The root's last vote decides (R319). -/
theorem test_vote : (after (.vote 0 sealed) (voting [0] false)).sealSt.decision = some (false, 0) := by decide +kernel

/-- A decision of ABORT in the window is held with its cause (R320). -/
theorem test_decision :
    (after (.decision { sealed with verdict := true, cause := 4 }) (voting [0] false)).sealSt.decision = some (true, 4) := by decide +kernel

/-- RELEASE brings REL to C in every hub (R323). -/
theorem test_release :
    ((after (.release { buddied with epoch := 4 }) { circuited 0 with hubs := (List.range 8).map fun h => (h, { commit := 4 }) }).hub 7).released = 4 := by decide +kernel

/-- A granule held newer than the buddy's copy is not answered with data (R328). -/
theorem test_restore_request :
    (after (.sheetRestoreRequest 5 3) (copying_ { buddyEpoch := 2 })).emitted.head? = some (.sheetReply 5 none) := by decide +kernel

/-- CARTOUCHE_FETCH without the licence answers 0x0503 (R407). -/
theorem test_cartouche : answers 4 0x0405 ready (.cartoucheFetch (cmd) 3 []) = some 0x0503 := by decide +kernel

/-- A transceiver above 30 W keeps its port down (R236). -/
theorem test_gateway_module :
    ((after (.gatewayModule 1 301) ready).gw 1).lowPower = true ∧ ((after (.gatewayModule 1 300) ready).gw 1).lowPower = false := by decide +kernel

set_option maxRecDepth 100000 in
/-- A packet in sequence moves the tunnel's sequence on (R235). -/
theorem test_tunnel :
    ((after (.tunnelPacket 1 3 7 0 0 (some (sealHeader { plainPacket with coord := 0 }))) gatewayUp).gw 1).tunnels.map (fun x => x.rxNext) = [1] := by decide +kernel

/-- A SEND message is received in sequence (R233). -/
theorem test_roce : ((after (.rocePacket 1 7 0 ⟨.sendMsg [5], false⟩) gatewayUp).gw 1).qps.map (fun q => q.received) = [[[5]]] := by decide +kernel

/-- PMBUS_REVISION reads 0x33 (R439). -/
theorem test_pmbus : (after .pmbusRevision ready).emitted = [.smbus 0x33] := by decide +kernel

/-! ## The mapping rules, at the manual's examples -/

/-- Shard 5 of V = 8 on 8 modules, then shards 4 to 7 on 2 (R273). -/
theorem test_kept_slices :
    (keptSlices 3 0 5 0, keptSlices 3 0 5 1, keptSlices 3 0 5 2) = ([1, 3, 5, 7], [1, 5], [5]) ∧ keptSlices 3 2 4 2 = [4, 5, 6, 7] ∧
      sliceRange 128 3 5 = (80, 16) ∧ slicesWhole 128 3 = true ∧ slicesWhole 120 3 = false := by decide +kernel

/-- Loads of the busiest link in 1/64 of B: 1.25 B and 2.75 B, and 0.375 B for a ring of 4 (R275). -/
theorem test_busiest_link :
    (halvingLoad (cheapLadder 3) 64, halvingLoad (cheapLadder 6) 64, ringLoad 4 64) = (80, 176, 24) := by decide +kernel

/-- The job of R282: 16 stages and 32 micro-batches last 111 units, of which 15 are its bubble. -/
theorem test_pipeline :
    (microBatches 4 2, stepUnits 16 32, stageTimes 16 32 15, microBatchShard 48 2 5) = (32, 111, ((15, 47), (47, 79), 0), 50) := by
  decide +kernel

/-- Link 14's fibres are those of connector 7 (R18); each 4 KiB region has two lines in every bank (R74); status 0x0702 is of class Timeout. -/
theorem test_fibres_banks_and_classes :
    (fibrePosition 14 0 true, fibrePosition 14 3 true, fibrePosition 14 0 false) = ((7, 1), (7, 4), (7, 16)) ∧
      (List.range 32).all (fun b => ((List.range 64).filter fun i => tileBank (4096 * 5 + 64 * i) = b).length == 2) = true ∧
      bankCycles [0, 2112, 64] = 2 ∧ statusClass 0x0702 = some .timeout := by decide +kernel

end Sys2Proof.Tests
end

section
/-! What a module reset leaves (R370, R374), and the sources that end in it (R19, R374, R432, R435). -/
namespace Sys2Proof

open Sys2Proof.Machine

/-! ## Logging and entering HELD -/

@[simp] theorem note_policies (e : Event) (src d : Nat) (s : State) : (s.note e src d).faults.policies = s.faults.policies :=
  note_only e src d s .policies (by decide)

@[simp] theorem hold_policies (c : Nat) (s : State) : (s.hold c).faults.policies = s.faults.policies :=
  hold_only c s .policies (by decide)

/-- Entering HELD changes the device's state, its cause and the count of state changes only (R389, R390). -/
theorem hold_dev (c : Nat) (s : State) :
    (s.hold c).dev = { s.dev with
      state := .held, heldCause := BitVec.ofNat 8 c
      stateChanges := if s.dev.state = .held then s.dev.stateChanges else satInc s.dev.stateChanges } := by
  simp only [State.hold, onDev_dev, enter_dev]
  split
  next h => simp [← h]
  next => rfl

/-- Logging an event leaves what the end of a command restores. -/
theorem committed_note (e : Event) (src d : Nat) (s t : State) : committed (s.note e src d) t = committed s t := by
  simp [committed]

/-! ## What a module reset leaves -/

/-- The power settings that a module reset keeps are those in force once the accepted ones take effect (R335). -/
theorem kept_settledPower (now : Nat) (p : Power) : ((p.kept now).capW, (p.kept now).floorHoldUs) = settledPower p := by
  cases hn : p.next with
  | none => simp only [Power.kept, Power.applyNext, settledPower, hn]
  | some n => simp only [Power.kept, Power.applyNext, settledPower, hn]

/-- With no dump held a module reset is logged, and goes straight to HELD (R370, R377). -/
theorem moduleReset_no_dump (cause held : Nat) {s : State} (h : s.dump.held = none) :
    s.moduleReset cause held = (s.logReset .module srcModule cause).resetState.hold held := by
  simp [State.moduleReset, State.logReset, h]

theorem resetState_hold_afterModuleReset (c : Nat) (s : State) : AfterModuleReset c s (committed s (s.resetState.hold c)) := by
  let r := s.resetState
  have hdev := hold_dev c r
  have hlicences := congrArg Security.licences (hold_sec c r)
  have henergy := congrArg Clock.energy (hold_clock c r)
  have huptime := congrArg Clock.uptime (hold_clock c r)
  have hfirst : KeepsFirst s (r.hold c) := hold_first c r
  have hpower : ((r.hold c).power.capW, (r.hold c).power.floorHoldUs) = settledPower s.power := by
    rw [hold_power]
    exact kept_settledPower s.clock.uptime s.power
  have hmem : ∀ k, (r.hold c).byteAt k = 0 := fun k => congrArg (Tab.get 0 k) (hold_mem c r)
  exact ⟨congrArg Device.state hdev, congrArg Device.heldCause hdev, congrArg Device.romRestart hdev, congrArg Device.mainOn hdev,
    congrArg Device.firmware hdev, hold_cores c r, hold_coreMap c r, hold_hubs c r, hold_job c r, hold_topo c r, hmem, hfirst,
    hold_policies c r, hlicences, henergy, huptime, hpower, rfl, rfl⟩

/-- An event logged before a module reset takes nothing from what the reset keeps. -/
theorem afterModuleReset_of_note {c src d : Nat} {e : Event} {s t : State} (h : AfterModuleReset c (s.note e src d) t) :
    AfterModuleReset c s t := by
  obtain ⟨hstate, hcause, hrom, hmain, hfw, hcores, hmap, hhubs, hjob, htopo, hmem, hfirst, kept⟩ := h
  have hkeeps : KeepsFirst s t := (note_first e src d s).trans hfirst
  simp only [note_policies, note_sec, note_clock, note_power, note_fuses, note_pending] at kept
  exact ⟨hstate, hcause, hrom, hmain, hfw, hcores, hmap, hhubs, hjob, htopo, hmem, hkeeps, kept⟩

theorem moduleReset_afterModuleReset (cause c : Nat) {s : State} (h : s.dump.held = none) :
    AfterModuleReset c s (committed s (s.moduleReset cause c)) := by
  rw [moduleReset_no_dump cause c h]
  have hr := resetState_hold_afterModuleReset c (s.logReset .module srcModule cause)
  rw [State.logReset, committed_note] at hr
  exact afterModuleReset_of_note hr

/-- A module reset for a cause that is logged first (R19, R374, R432). -/
theorem note_moduleReset_afterModuleReset (e : Event) (src d cause c : Nat) {s : State} (h : s.dump.held = none) :
    AfterModuleReset c s (committed s ((s.note e src d).moduleReset cause c)) := by
  have hr := moduleReset_afterModuleReset cause c (s := s.note e src d) (by rw [note_dump]; exact h)
  rw [committed_note] at hr
  exact afterModuleReset_of_note hr

/-! ## The sources of a module reset -/

/-- MOD_RESET_N low long enough, while the control dies run and no dump does, takes a module reset (R435, R442, R380). -/
theorem modReset_long {lowNs : Nat} {s : State} (hv : s.dev.vin48 = true) (hs : s.dev.standbyOn = true)
    (hr : s.dev.romRestart = false) (hd : s.dump.running = none) (hl : 10000 ≤ lowNs) :
    modReset lowNs s = s.moduleReset causePin 5 := by
  simp [modReset, State.requestReset, hv, hs, hr, hd, hl]

/-- A pulse below 10 µs is no reset (R435). -/
theorem modReset_short {lowNs : Nat} {s : State} (hl : lowNs < 10000) : modReset lowNs s = s := by
  simp [modReset, Nat.not_le.mpr hl]

theorem controlMismatch_resets {s : State} (hs : s.dev.standbyOn = true) :
    controlMismatch s = (s.note .controlMismatch srcControl).moduleReset causeMismatch 4 := if_pos hs

theorem controlWatchdog_resets {s : State} (hs : s.dev.standbyOn = true) :
    controlWatchdog s = (s.note .controlWatchdog srcControl).moduleReset causeWatchdog 7 := if_pos hs

theorem inputOvervoltage_resets {s : State} (hv : s.dev.vin48 = true) (hs : s.dev.standbyOn = true) :
    inputOvervoltage s = (((s.note .inputOvervoltage srcCarrier).moduleReset causeOvervolt 5).onDev
      fun d => { d with overvolt := true }).onMgmt fun m => { m with thermTrip := true } := by
  simp [inputOvervoltage, hv, hs]

/-- The overvoltage hold and the pin THERMTRIP_N are no part of what a module reset leaves. -/
theorem afterModuleReset_overvolt {c : Nat} {s r t : State} (h : AfterModuleReset c s (committed r t)) :
    AfterModuleReset c s (committed r
      ((t.onDev fun d => { d with overvolt := true }).onMgmt fun m => { m with thermTrip := true })) := h

/-- Settles O6: each source comes down to a module reset, after its own event where it logs one, with no dump held. -/
theorem moduleResetSourcesEndInHeld : Obligations.ModuleResetSourcesEndInHeld := by
  intro s hv hs hheld hrun
  refine ⟨fun lowNs hl hr => gives_commit rfl ?_, fun lowNs hl => gives_commit rfl ?_, gives_commit rfl ?_,
    gives_commit rfl ?_, gives_commit rfl ⟨?_, ?_, ?_⟩⟩
  · rw [modReset_long hv hs hr hrun hl]
    exact moduleReset_afterModuleReset causePin 5 hheld
  · rw [modReset_short hl]
    exact (Only.refl [] s).commit
  · rw [controlMismatch_resets hs]
    exact note_moduleReset_afterModuleReset .controlMismatch srcControl 0 causeMismatch 4 hheld
  · rw [controlWatchdog_resets hs]
    exact note_moduleReset_afterModuleReset .controlWatchdog srcControl 0 causeWatchdog 7 hheld
  · rw [inputOvervoltage_resets hv hs]
    exact afterModuleReset_overvolt
      (note_moduleReset_afterModuleReset .inputOvervoltage srcCarrier 0 causeOvervolt 5 hheld)
  · rw [inputOvervoltage_resets hv hs]
    rfl
  · rw [inputOvervoltage_resets hv hs]
    rfl

end Sys2Proof
end
